-- ==== Sys2Proof/Word.lean ====
section
/-! DEFINITION. The bit vectors the spec names: bytes, 32-bit words, 64-bit addresses and lengths (00_scope.md R6, R7). -/

namespace Sys2Proof

/-- A byte, the unit of system memory (00_scope.md R9). -/
abbrev Byte := BitVec 8

/-- A register, a working-state word, a message word, a command word: WORD_BITS = 32 (00_scope.md R6). -/
abbrev Word := BitVec 32

/-- A system-memory address or a byte length: ADDR_W = LEN_W = 64 (00_scope.md R6). -/
abbrev Word64 := BitVec 64

end Sys2Proof
end

