-- ==== Sys2Proof/Machine/Bytes.lean ====
section
/-! DEFINITION. Word and byte operations (00_scope.md R8, R9). -/

namespace Sys2Proof.Machine

/-- `rol32(x, s)` for 0 < s < 32 (00_scope.md R8). -/
def rol32 (x : Word) (s : Nat) : Word := (x <<< s) ||| (x >>> (32 - s))

/-- The word whose byte in bits 8m+7:8m is `bm`. -/
def wordOfBytes (b0 b1 b2 b3 : Byte) : Word := b3 ++ b2 ++ b1 ++ b0

/-- `le32` of four bytes in address order (00_scope.md R9). -/
def le32 (m0 m1 m2 m3 : Byte) : Word := wordOfBytes m0 m1 m2 m3

/-- `be32` of four bytes in address order (00_scope.md R9). -/
def be32 (m0 m1 m2 m3 : Byte) : Word := wordOfBytes m3 m2 m1 m0

/-- Byte `m` of a number, `v[8m+7:8m]` (00_scope.md R9). -/
def byteOf (v m : Nat) : Byte := BitVec.ofNat 8 (v >>> (8 * m))

/-- `le_bytes(v, n)` (00_scope.md R9). -/
def leBytes (v n : Nat) : List Byte := (List.range n).map fun m => byteOf v m

/-- `be_bytes(v, n)` (00_scope.md R9). -/
def beBytes (v n : Nat) : List Byte := (List.range n).map fun m => byteOf v (n - 1 - m)

/-- A 64-bit value with its low half replaced (10_state.md R38). -/
def setLo (x : Word64) (v : Word) : Word64 := x.extractLsb' 32 32 ++ v

/-- A 64-bit value with its high half replaced (10_state.md R38). -/
def setHi (x : Word64) (v : Word) : Word64 := v ++ x.extractLsb' 0 32

/-- Bits 31:0 of a pair (10_state.md R38). -/
def lo32 (x : Word64) : Word := x.extractLsb' 0 32

/-- Bits 63:32 of a pair (10_state.md R38). -/
def hi32 (x : Word64) : Word := x.extractLsb' 32 32

end Sys2Proof.Machine
end

