-- ==== Sys2Proof/Config.lean ====
section
/-! DEFINITION. What the spec leaves to the implementation or to the platform: the parameters of 00_scope.md R6, and the
free values (constants with no body) behind every "unspecified" of 93_implementation_defined.md (log 5). -/

namespace Sys2Proof.Config

/-- REG_BASE, left OPEN (00_scope.md R6, R20, U18): the address of the register window in the host's address space. -/
opaque regBase : Word64

/-- REG_WINDOW_BYTES (00_scope.md R6). -/
def regWindowBytes : Nat := 4096

/-- The first value that is no system-memory address, 2^ADDR_W (00_scope.md R6, 20_memory.md R60). -/
def addrLimit : Nat := 2 ^ 64

/-- MD5_MAX_INPUT_BITS: 0 denotes unbounded (00_scope.md R6, 10_state.md R23). -/
def md5MaxInputBits : Word64 := 0

/-- SHA1_MAX_INPUT_BITS, a named parameter (00_scope.md R6, 10_state.md R24, U17): an implementation gives it any value,
and only the two descriptor registers show it (log 12). -/
opaque sha1MaxInputBits : Word64

/-- The default of SHA1_MAX_INPUT_BITS (00_scope.md R6, G5): the parameter's value where an implementation gives no other.
Nothing in the machine reads it. -/
def sha1MaxInputBitsDefault : Word64 := 0xFFFFFFFFFFFFFFFF

/-- Free value: the byte an engine read of a raced source byte returns (70_reset_and_hazards.md R245, U9), by draw and
address. -/
opaque freeRead : Nat → Nat → Byte

/-- Free value: the byte left at an address whose contents the spec calls unspecified (U6, U7, U8, U10), by draw and
address. -/
opaque freeByte : Nat → Nat → Byte

/-- Free value: an unspecified 32-bit word (U5, U6, U11, U12), by draw and slot. -/
opaque freeWord : Nat → Nat → Word

/-- Free value: an unspecified 64-bit value (U6, U12), by draw and slot. -/
opaque freeWord64 : Nat → Nat → Word64

/-- Free value: an unspecified natural number of the engine's internal state (U12), by draw and slot. -/
opaque freeNat : Nat → Nat → Nat

/-- Free value: an unspecified bit of the engine's internal state (U12), by draw. -/
opaque freeBit : Nat → Bool

end Sys2Proof.Config
end

