-- ==== Sys2Proof/Syntax.lean ====
section
/-! DEFINITION. The ten commands of 30_encoding.md R89, and the fields of a command word (R86). -/

namespace Sys2Proof

/-- The two engines, field ALG (30_encoding.md R87). -/
inductive Alg where
  | md5
  | sha1
deriving DecidableEq, Repr

/-- The padding geometries, field GEOM (30_encoding.md R87, 40_padding.md R105). -/
inductive Geom where
  /-- 64-byte blocks, 8-byte big-endian length. -/
  | p512
  /-- 128-byte blocks, 16-byte big-endian length. -/
  | p1024
  /-- 64-byte blocks, 8-byte little-endian length. -/
  | p512le
deriving DecidableEq, Repr

/-- The fields of a command word, format CMDW (30_encoding.md R86). -/
structure CmdFields where
  /-- Bits 3:0, the operation. -/
  op : BitVec 4
  /-- Bits 5:4, ALG for INIT, COMPRESS and HASH, GEOM for PAD. -/
  sel : BitVec 2
  /-- Bits 31:6, reserved. -/
  rsvd : BitVec 26
deriving DecidableEq, Repr

/-- The instruction set: one constructor per row of the opcode table. A command word carries no operand
(30_encoding.md R88). -/
inductive Instr where
  | nop
  | initMd5
  | initSha1
  | compressMd5
  | compressSha1
  | hashMd5
  | hashSha1
  | padP512
  | padP1024
  | padP512le
deriving DecidableEq, Repr

/-- Every instruction, in the order of the opcode table (30_encoding.md R89). -/
def Instr.all : List Instr :=
  [.nop, .initMd5, .initSha1, .compressMd5, .compressSha1, .hashMd5, .hashSha1, .padP512, .padP1024, .padP512le]

/-- The assembler's name of a command (30_encoding.md R95). -/
def Instr.mnemonic : Instr → String
  | .nop => "NOP"
  | .initMd5 => "INIT.MD5"
  | .initSha1 => "INIT.SHA1"
  | .compressMd5 => "COMPRESS.MD5"
  | .compressSha1 => "COMPRESS.SHA1"
  | .hashMd5 => "HASH.MD5"
  | .hashSha1 => "HASH.SHA1"
  | .padP512 => "PAD.P512"
  | .padP1024 => "PAD.P1024"
  | .padP512le => "PAD.P512LE"

end Sys2Proof
end

