-- ==== Sys2Proof/Machine/State.lean ====
section
/-! DEFINITION. The machine's state (10_state.md), the inputs the host can give it, the reasons a step can stop, and the
state after reset (10_state.md R50). -/

namespace Sys2Proof.Machine

/-- The fields of STATUS (10_state.md R26); its bits 31:8 are RAZ/WI and hold nothing. -/
structure Status where
  busy : Bool
  done : Bool
  err : Bool
  ovr : Bool
  errcode : BitVec 4
deriving DecidableEq, Repr

/-- The fields of CTRL (10_state.md R28); its bits 31:2 are RAZ/WI and hold nothing. -/
structure Ctrl where
  sha1Le : Bool
  ie : Bool
deriving DecidableEq, Repr

/-- The block buffer BLK[0..63] (10_state.md R36). -/
abbrev Block := Vector Byte 64

/-- The four words of MD5's state (10_state.md R35, R41). -/
structure Md5State where
  a : Word
  b : Word
  c : Word
  d : Word
deriving DecidableEq, Repr

/-- The five words of SHA-1's state (10_state.md R35, R41). -/
structure Sha1State where
  a : Word
  b : Word
  c : Word
  d : Word
  e : Word
deriving DecidableEq, Repr

/-- The sequencer's phases (10_state.md R47). -/
inductive Phase where
  | idle
  | check
  | initH
  | fill
  | loadw
  | step
  | add
  | out
  | copy
  | padw
  | complete
deriving DecidableEq, Repr

/-- The errors a command can complete with (60_exceptions.md R215). -/
inductive CmdError where
  /-- SIZE: the bit length does not fit the length field. -/
  | size
  /-- CMD: the command word is ILLEGAL. -/
  | cmd
  /-- ADDR: a range passes the top of the address space. -/
  | addr
  /-- BUS: the memory answered the access at this address with a bus error. -/
  | bus (a : Nat)
deriving DecidableEq, Repr

/-- The engine's internal state (10_state.md R40), which the host cannot read. -/
structure Engine where
  /-- The accepted word; its fields are R40's `op` and `sel` (43_control.md R193). -/
  cmdword : Word
  /-- CTRL.SHA1_LE latched at acceptance (10_state.md R44). -/
  sha1Le : Bool
  /-- SRC, LEN and DST latched at acceptance (10_state.md R44). -/
  src : Word64
  len : Word64
  dst : Word64
  /-- Working state (10_state.md R41). -/
  a : Word
  b : Word
  c : Word
  d : Word
  e : Word
  /-- Snapshot of the chaining state (10_state.md R42). -/
  s0 : Word
  s1 : Word
  s2 : Word
  s3 : Word
  s4 : Word
  /-- MD5 message words (10_state.md R43). -/
  x : Vector Word 16
  /-- SHA-1 schedule (10_state.md R43). -/
  w : Vector Word 80
  /-- Step index within the block. -/
  t : Nat
  /-- Position in the padded stream. -/
  q : Nat
  /-- Padded length of the running HASH or PAD. -/
  p : Nat
  /-- Output byte index. -/
  k : Nat
  /-- What the running command will complete with, `none` for success (implied by 43_control.md R196). -/
  result : Option CmdError
deriving DecidableEq, Repr

/-- A range of addresses at which the memory answers the engine's reads or writes with a bus error (20_memory.md R64,
R65, 93_implementation_defined.md U15). -/
structure ErrRegion where
  /-- First address. -/
  lo : Nat
  /-- Last address. -/
  hi : Nat
  onRead : Bool
  onWrite : Bool
deriving DecidableEq, Repr

/-- One access of the engine to system memory (20_memory.md R64, R65). -/
inductive Access where
  | read (a : Nat)
  | write (a : Nat)
deriving DecidableEq, Repr

/-- What the world outside the engine does next (log 2). Each is one indivisible action (70_reset_and_hazards.md R255). -/
inductive Event where
  /-- A register read of `width` bytes at offset `off` of the window (30_encoding.md R94, 20_memory.md R66,
  log 19). -/
  | rd (width : Nat) (off : BitVec 12)
  /-- A register write of `width` bytes of value `v` at offset `off` (30_encoding.md R94, 20_memory.md R66). -/
  | wr (width : Nat) (off : BitVec 12) (v : Word)
  /-- The pseudo-instruction WAIT: poll STATUS until BUSY = 0 (30_encoding.md R97). -/
  | wait
  /-- A read of a byte of system memory by the host (20_memory.md R61, R76, log 21). -/
  | memRead (a : Word64)
  /-- A write of a byte of system memory by the host or another agent (20_memory.md R61, R76). -/
  | memWrite (a : Word64) (v : Byte)
  /-- The reset input is driven to a level (70_reset_and_hazards.md R240). -/
  | setRst (level : Bool)
  /-- The memory's choice of which accesses err changes (93_implementation_defined.md U15). -/
  | setBusMap (m : List ErrRegion)
  /-- The engine takes one step of 70_reset_and_hazards.md R256. -/
  | engine
deriving DecidableEq, Repr

/-- What an access of the host is answered. -/
inductive Reply where
  /-- A register read's value. -/
  | word (v : Word)
  /-- A memory read's value. -/
  | byte (v : Byte)
  /-- A write was taken. -/
  | done
  /-- A host bus error; a read returns no value (20_memory.md R66). -/
  | busError
deriving DecidableEq, Repr

/-- The machine. -/
structure State where
  /-- STATUS (10_state.md R26). -/
  status : Status
  /-- CTRL (10_state.md R28). -/
  ctrl : Ctrl
  /-- SRC (10_state.md R29). -/
  src : Word64
  /-- LEN (10_state.md R30). -/
  len : Word64
  /-- DST (10_state.md R31). -/
  dst : Word64
  /-- OUTLEN (10_state.md R32). -/
  outlen : Word64
  /-- BLKCNT (10_state.md R33). -/
  blkcnt : Word64
  /-- ERRADDR (10_state.md R34). -/
  erraddr : Word64
  /-- H0..H4, the chaining state (10_state.md R35). -/
  h0 : Word
  h1 : Word
  h2 : Word
  h3 : Word
  h4 : Word
  /-- BLK (10_state.md R36). -/
  blk : Block
  /-- The sequencer's phase (10_state.md R47). -/
  phase : Phase
  /-- The engine's internal state (10_state.md R40). -/
  eng : Engine
  /-- System memory (20_memory.md R60), in the canonical form of `Memory.wf`. -/
  mem : List Host.Cell
  /-- Which engine accesses the memory answers with a bus error (20_memory.md R64, R65). -/
  busMap : List ErrRegion
  /-- The level of the reset input (00_scope.md R5). -/
  rst : Bool
  /-- The MODEL's own: the inputs still to come, oldest first (log 2). -/
  agenda : List Event
  /-- The MODEL's own: what the host's accesses were answered, newest first (log 18). -/
  replies : List Reply
  /-- The MODEL's own: the engine's memory accesses so far, oldest first (log 18; 20_memory.md R71, R72). -/
  port : List Access
  /-- The MODEL's own: addresses another agent wrote since acceptance (log 10; 70_reset_and_hazards.md R245, R246). -/
  raced : List Nat
  /-- The MODEL's own: the source bytes the running command has read so far, in order (log 10). -/
  got : List Byte
  /-- The MODEL's own: the counter free values are drawn by (log 5). -/
  free : Nat
deriving DecidableEq, Repr

/-- Why a step stops with a fault. The engine never reaches one from a state of the invariant (60_exceptions.md R221,
log 14). -/
inductive Fault where
  /-- Raised by an engine step in phase STEP whose index is outside 0..63 (MD5) or 0..79 (SHA-1), as 41_md5.md R151 and
  42_sha1.md R176 ask. Safe: the spec says the hardware cannot reach it. -/
  | stepIndex (t : Nat)
  /-- Raised by an engine step in a phase that the accepted command's program does not contain, or with an index outside
  the phase's loop (10_state.md R48, 60_exceptions.md R221). Safe: the spec says the hardware cannot reach it. -/
  | sequencer (p : Phase)
  /-- Raised by an engine step that would access an address outside system memory (20_memory.md R60, R73). Safe: CHECK
  fails such a command first. -/
  | noSuchAddress (a : Nat)
deriving DecidableEq, Repr

/-- Why a step is refused. No arm and no meaning answers one: every command has its effect. -/
inductive Refusal where
  /-- An instruction with no meaning yet. Safe. -/
  | notModelled (mnemonic : String)
deriving DecidableEq, Repr

/-- The engine's internal state right after reset. 10_state.md R50 leaves it unspecified and no rule reads it before a
command writes it; zeros are a DESIGN CHOICE (log 6), unsafe. -/
def Engine.reset : Engine :=
  { cmdword := 0, sha1Le := false, src := 0, len := 0, dst := 0
    a := 0, b := 0, c := 0, d := 0, e := 0, s0 := 0, s1 := 0, s2 := 0, s3 := 0, s4 := 0
    x := Vector.replicate 16 0, w := Vector.replicate 80 0, t := 0, q := 0, p := 0, k := 0, result := none }

/-- The machine right after reset (10_state.md R50, 70_reset_and_hazards.md R240). -/
def State.reset : State :=
  { status := { busy := false, done := false, err := false, ovr := false, errcode := 0 }
    ctrl := { sha1Le := false, ie := false }
    src := 0, len := 0, dst := 0, outlen := 0, blkcnt := 0, erraddr := 0
    h0 := 0, h1 := 0, h2 := 0, h3 := 0, h4 := 0
    blk := Vector.replicate 64 0
    phase := .idle
    eng := Engine.reset
    mem := [], busMap := [], rst := false
    agenda := [], replies := [], port := [], raced := [], got := [], free := 0 }

end Sys2Proof.Machine
end

