-- ==== Sys2Proof/Machine/Flags.lean ====
section
/-! DEFINITION. STATUS and CTRL as words, and every update of the STATUS fields (10_state.md R26 to R28, 43_control.md R193,
R196). The hardware has no other flags (10_state.md R37). -/

namespace Sys2Proof.Machine

/-- A field of one bit at position `n` of a 32-bit register. -/
def bitAt (b : Bool) (n : Nat) : Word := if b then BitVec.ofNat 32 (2 ^ n) else 0

/-- STATUS as it reads; bits 31:8 read 0 (10_state.md R26). -/
def statusWord (st : Status) : Word :=
  bitAt st.busy 0 ||| bitAt st.done 1 ||| bitAt st.err 2 ||| bitAt st.ovr 3 ||| (st.errcode.setWidth 32 <<< 4)

/-- CTRL as it reads; bits 31:2 read 0 (10_state.md R28). -/
def ctrlWord (c : Ctrl) : Word := bitAt c.sha1Le 0 ||| bitAt c.ie 1

/-- CTRL after a write of `v`; bits 31:2 of `v` are ignored (10_state.md R28, 43_control.md R202). -/
def ctrlOfWord (v : Word) : Ctrl := { sha1Le := v.getLsbD 0, ie := v.getLsbD 1 }

/-- STATUS after a write of `v`: bits 1, 2 and 3 clear by writing 1, the others are ignored (10_state.md R27). -/
def statusW1c (st : Status) (v : Word) : Status :=
  { busy := st.busy
    done := st.done && !v.getLsbD 1
    err := st.err && !v.getLsbD 2
    ovr := st.ovr && !v.getLsbD 3
    errcode := if v.getLsbD 2 then 0 else st.errcode }

/-- STATUS at acceptance; OVR is kept (43_control.md R193). -/
def statusAccept (st : Status) : Status :=
  { busy := true, done := false, err := false, ovr := st.ovr, errcode := 0 }

/-- STATUS when a command is dropped (70_reset_and_hazards.md R247). -/
def statusOverrun (st : Status) : Status := { st with ovr := true }

/-- ERRCODE of an error (60_exceptions.md R215). -/
def errCode : CmdError → BitVec 4
  | .size => 1
  | .cmd => 2
  | .addr => 3
  | .bus _ => 4

/-- STATUS at completion with a result; a success leaves ERR and ERRCODE as acceptance put them (43_control.md R196,
log 16). -/
def statusComplete (r : Option CmdError) (st : Status) : Status :=
  match r with
  | none => { st with busy := false, done := true }
  | some e => { st with busy := false, done := true, err := true, errcode := errCode e }

/-- The `irq` wire, `CTRL.IE & STATUS.DONE` (10_state.md R45, 60_exceptions.md R222). -/
def irq (s : State) : Bool := s.ctrl.ie && s.status.done

end Sys2Proof.Machine
end

