-- ==== Sys2Proof/WellFormed.lean ====
section
/-! DEFINITION. Which command words are legal (30_encoding.md R86, R90, R91). An instruction carries no operand (R88), so
an `Instr` as such is always well-formed; the checks are on the fields of a word. -/

namespace Sys2Proof

/-- Bits 31:6 must be 0 (30_encoding.md R86). -/
def CmdFields.rsvdOk (f : CmdFields) : Bool := f.rsvd == 0

/-- OP 5..15 is reserved (30_encoding.md R86). -/
def CmdFields.opOk (f : CmdFields) : Bool := f.op.toNat ≤ 4

/-- The values of SEL that OP admits: 0 for NOP; 0, 1 for INIT, COMPRESS and HASH; 0, 1, 2 for PAD (30_encoding.md R86). -/
def CmdFields.selOk (f : CmdFields) : Bool :=
  match f.op.toNat with
  | 0 => f.sel == 0
  | 1 | 2 | 3 => f.sel.toNat ≤ 1
  | 4 => f.sel.toNat ≤ 2
  | _ => true

/-- A legal command word's fields. -/
def CmdFields.wf (f : CmdFields) : Bool := f.rsvdOk && f.opOk && f.selOk

/-- Every instruction is well-formed: it carries no operand to check (30_encoding.md R88). -/
def Instr.wf (_ : Instr) : Bool := true

end Sys2Proof
end

