-- ==== Sys2Proof/Decode.lean ====
section
/-! DEFINITION. Decoding a command word (30_encoding.md R90), total on every 32-bit word, and the encoder. -/

namespace Sys2Proof

/-- Why a word is ILLEGAL (30_encoding.md R91), by name. -/
inductive IllegalWord where
  /-- A bit of 31:6 is set. -/
  | reservedBits
  /-- OP = 0 with SEL other than 0. -/
  | nopSelect
  /-- OP = 1, 2 or 3 with SEL = 2 or 3. -/
  | reservedAlgorithm
  /-- OP = 4 with SEL = 3. -/
  | reservedGeometry
  /-- OP in 5..15. -/
  | reservedOperation
deriving DecidableEq, Repr

/-- The fields of a word (30_encoding.md R86). -/
def cmdFields (w : Word) : CmdFields :=
  { op := w.extractLsb' 0 4, sel := w.extractLsb' 4 2, rsvd := w.extractLsb' 6 26 }

/-- The word of given fields (30_encoding.md R86). -/
def packFields (f : CmdFields) : Word := f.rsvd ++ f.sel ++ f.op

/-- INIT, COMPRESS and HASH select an algorithm; 2 and 3 are reserved (30_encoding.md R87, R90). -/
def decodeAlg (sel : BitVec 2) : Except IllegalWord Alg :=
  match sel.toNat with
  | 0 => .ok .md5
  | 1 => .ok .sha1
  | _ => .error .reservedAlgorithm

/-- PAD selects a geometry; 3 is reserved (30_encoding.md R87, R90). -/
def decodeGeom (sel : BitVec 2) : Except IllegalWord Geom :=
  match sel.toNat with
  | 0 => .ok .p512
  | 1 => .ok .p1024
  | 2 => .ok .p512le
  | _ => .error .reservedGeometry

/-- The INIT command of an algorithm. -/
def Instr.init : Alg → Instr
  | .md5 => .initMd5
  | .sha1 => .initSha1

/-- The COMPRESS command of an algorithm. -/
def Instr.compress : Alg → Instr
  | .md5 => .compressMd5
  | .sha1 => .compressSha1

/-- The HASH command of an algorithm. -/
def Instr.hash : Alg → Instr
  | .md5 => .hashMd5
  | .sha1 => .hashSha1

/-- The PAD command of a geometry. -/
def Instr.pad : Geom → Instr
  | .p512 => .padP512
  | .p1024 => .padP1024
  | .p512le => .padP512le

/-- The case analysis of 30_encoding.md R90 on the fields, the reserved bits first. -/
def decodeFields (f : CmdFields) : Except IllegalWord Instr :=
  if f.rsvd ≠ 0 then .error .reservedBits
  else
    match f.op.toNat with
    | 0 => if f.sel = 0 then .ok .nop else .error .nopSelect
    | 1 => (decodeAlg f.sel).map Instr.init
    | 2 => (decodeAlg f.sel).map Instr.compress
    | 3 => (decodeAlg f.sel).map Instr.hash
    | 4 => (decodeGeom f.sel).map Instr.pad
    | _ => .error .reservedOperation

/-- 30_encoding.md R90: `decode(w)`, its ILLEGAL split by cause. -/
def decode (w : Word) : Except IllegalWord Instr := decodeFields (cmdFields w)

/-- The instruction in a row's word: `w` numbered from bit 0, every bit from `nbits` up taken as 0. -/
def decodeTableWord (nbits w : Nat) : Option Instr :=
  let v := w % 2 ^ nbits
  if v < 2 ^ 32 then (decode (BitVec.ofNat 32 v)).toOption else none

/-- The fields of each command (30_encoding.md R86, R89). -/
def Instr.fields : Instr → CmdFields
  | .nop => { op := 0, sel := 0, rsvd := 0 }
  | .initMd5 => { op := 1, sel := 0, rsvd := 0 }
  | .initSha1 => { op := 1, sel := 1, rsvd := 0 }
  | .compressMd5 => { op := 2, sel := 0, rsvd := 0 }
  | .compressSha1 => { op := 2, sel := 1, rsvd := 0 }
  | .hashMd5 => { op := 3, sel := 0, rsvd := 0 }
  | .hashSha1 => { op := 3, sel := 1, rsvd := 0 }
  | .padP512 => { op := 4, sel := 0, rsvd := 0 }
  | .padP1024 => { op := 4, sel := 1, rsvd := 0 }
  | .padP512le => { op := 4, sel := 2, rsvd := 0 }

/-- The command word of an instruction (30_encoding.md R89). -/
def encode (i : Instr) : Word := packFields i.fields

/-- The command of a mnemonic (30_encoding.md R95). -/
def assemble (name : String) : Option Instr := Instr.all.find? fun i => i.mnemonic == name

end Sys2Proof
end

