-- ==== Sys2Proof/Machine/PadFn.lean ====
section
/-! DEFINITION. The padding function (40_padding.md, section 1). -/

namespace Sys2Proof.Machine

/-- B, the block bytes of a geometry (40_padding.md R105). -/
def blockBytes : Geom → Nat
  | .p512 => 64
  | .p1024 => 128
  | .p512le => 64

/-- F, the length-field bytes of a geometry (40_padding.md R105). -/
def fieldBytes : Geom → Nat
  | .p512 => 8
  | .p1024 => 16
  | .p512le => 8

/-- Whether the length field is big-endian (40_padding.md R105). -/
def lengthBigEndian : Geom → Bool
  | .p512 => true
  | .p1024 => true
  | .p512le => false

/-- The padding fails SIZE: `8L` exceeds the field (40_padding.md R106, R110). -/
def sizeOverflows (g : Geom) (l : Nat) : Bool := 2 ^ (8 * fieldBytes g) ≤ 8 * l

/-- z, the number of zero bytes: the least non-negative remainder of `B - F - (L + 1)` by B (40_padding.md R106). -/
def zeroFill (g : Geom) (l : Nat) : Nat :=
  (((blockBytes g : Int) - fieldBytes g - (l + 1)) % blockBytes g).toNat

/-- P, the padded length (40_padding.md R107). -/
def padLen (g : Geom) (l : Nat) : Nat := l + 1 + zeroFill g l + fieldBytes g

/-- The length field of a message of `l` bytes (40_padding.md R106). -/
def lengthField (g : Geom) (l : Nat) : List Byte :=
  if lengthBigEndian g then beBytes (8 * l) (fieldBytes g) else leBytes (8 * l) (fieldBytes g)

/-- The padded buffer of a message whose length passes the size check (40_padding.md R106). -/
def padBytes (g : Geom) (m : List Byte) : List Byte :=
  m ++ (0x80#8 :: (List.replicate (zeroFill g m.length) 0#8 ++ lengthField g m.length))

/-- `pad(M, g)`, with `none` for its failure SIZE (40_padding.md R106). -/
def pad (g : Geom) (m : List Byte) : Option (List Byte) :=
  if sizeOverflows g m.length then none else some (padBytes g m)

/-- Byte `q` of the padded stream after the message, `L ≤ q < P` (40_padding.md R111). -/
def padTail (g : Geom) (l q : Nat) : Byte :=
  if q = l then 0x80#8
  else if q < padLen g l - fieldBytes g then 0#8
  else
    let j := q - (padLen g l - fieldBytes g)
    if lengthBigEndian g then byteOf (8 * l) (fieldBytes g - 1 - j) else byteOf (8 * l) j

/-- Block `n` of a padded stream: its bytes 64n .. 64n+63 (00_scope.md R14). -/
def streamBlock (pd : List Byte) (n : Nat) : Block := Vector.ofFn fun j => pd.getD (64 * n + j.val) 0

end Sys2Proof.Machine
end

