-- ==== Sys2Proof/Machine/Operands.lean ====
section
/-! DEFINITION. The operands of a command: the latched SRC, LEN and DST (10_state.md R44, 30_encoding.md R88), the ranges
they name, and the checks of phase CHECK (60_exceptions.md R217, R218). -/

namespace Sys2Proof.Machine

/-- OP of the accepted word (10_state.md R40, 43_control.md R193). -/
def engineOp (e : Engine) : BitVec 4 := (cmdFields e.cmdword).op

/-- SEL of the accepted word (10_state.md R40, 43_control.md R193). -/
def engineSel (e : Engine) : BitVec 2 := (cmdFields e.cmdword).sel

/-- The geometry a command pads with: HASH.MD5 with P512LE, HASH.SHA1 with P512, PAD with its own (40_padding.md R119). -/
def geomOf : Instr → Option Geom
  | .hashMd5 => some .p512le
  | .hashSha1 => some .p512
  | .padP512 => some .p512
  | .padP1024 => some .p1024
  | .padP512le => some .p512le
  | .nop => none
  | .initMd5 => none
  | .initSha1 => none
  | .compressMd5 => none
  | .compressSha1 => none

/-- A PAD command (40_padding.md R113). -/
def isPad : Instr → Bool
  | .padP512 => true
  | .padP1024 => true
  | .padP512le => true
  | .nop => false
  | .initMd5 => false
  | .initSha1 => false
  | .compressMd5 => false
  | .compressSha1 => false
  | .hashMd5 => false
  | .hashSha1 => false

/-- The engine a command runs on; none for NOP and PAD (30_encoding.md R87). -/
def algOf : Instr → Option Alg
  | .initMd5 => some .md5
  | .compressMd5 => some .md5
  | .hashMd5 => some .md5
  | .initSha1 => some .sha1
  | .compressSha1 => some .sha1
  | .hashSha1 => some .sha1
  | .nop => none
  | .padP512 => none
  | .padP1024 => none
  | .padP512le => none

/-- L, the latched message length (10_state.md R30, R44). -/
def msgLen (s : State) : Nat := s.eng.len.toNat

/-- The latched address of message byte 0 (10_state.md R29, R44). -/
def srcBase (s : State) : Nat := s.eng.src.toNat

/-- The latched address of output byte 0 (10_state.md R31, R44). -/
def dstBase (s : State) : Nat := s.eng.dst.toNat

/-- P of the command's geometry and latched length, 0 for a command that pads nothing (40_padding.md R107). -/
def paddedLen (i : Instr) (s : State) : Nat :=
  match geomOf i with
  | some g => padLen g (msgLen s)
  | none => 0

/-- OUT, the bytes a successful command writes to memory, which OUTLEN then holds (10_state.md R32, 20_memory.md R61). -/
def outBytes (i : Instr) (s : State) : Nat :=
  match i with
  | .hashMd5 => 16
  | .hashSha1 => 20
  | .padP512 => paddedLen .padP512 s
  | .padP1024 => paddedLen .padP1024 s
  | .padP512le => paddedLen .padP512le s
  | .nop => 0
  | .initMd5 => 0
  | .initSha1 => 0
  | .compressMd5 => 0
  | .compressSha1 => 0

/-- The range check of 60_exceptions.md R218, on exact integers. -/
def rangeFails (i : Instr) (s : State) : Bool :=
  decide (Config.addrLimit < srcBase s + msgLen s) || decide (Config.addrLimit < dstBase s + outBytes i s)
    || (isPad i && decide (Config.addrLimit - 1 < outBytes i s))

/-- Checks 2 and 3 of 60_exceptions.md R217 (check 1 is the decoder's): SIZE, then ADDR. -/
def checkOperands (i : Instr) (s : State) : Option CmdError :=
  match geomOf i with
  | none => none
  | some g =>
    if sizeOverflows g (msgLen s) then some .size
    else if rangeFails i s then some .addr
    else none

/-- Address `a` lies in the range of `n` bytes from `base`. -/
def inRange (base n a : Nat) : Bool := decide (base ≤ a ∧ a < base + n)

/-- The source range and the destination range of a PAD share an address (40_padding.md R118). -/
def padOverlaps (i : Instr) (s : State) : Bool :=
  isPad i && decide (0 < msgLen s) && decide (srcBase s < dstBase s + outBytes i s)
    && decide (dstBase s < srcBase s + msgLen s)

/-- The accesses a command makes, in order: HASH reads ascending, then writes ascending; PAD reads and writes byte by byte,
then writes the padding; the others none (20_memory.md R71, R72). -/
def portPlan (i : Instr) (s : State) : List Access :=
  match geomOf i with
  | none => []
  | some _ =>
    if isPad i then
      (List.range (msgLen s)).flatMap (fun q => [Access.read (srcBase s + q), Access.write (dstBase s + q)])
        ++ (List.range (outBytes i s - msgLen s)).map fun j => Access.write (dstBase s + (msgLen s + j))
    else
      (List.range (msgLen s)).map (fun q => Access.read (srcBase s + q))
        ++ (List.range (outBytes i s)).map fun k => Access.write (dstBase s + k)

/-- The accepted command, when its word is legal: the one whose ranges 70_reset_and_hazards.md R241, R245 and R246 speak of,
whether or not it will pass its checks (log 8). -/
def runningCommand (s : State) : Option Instr :=
  match decode s.eng.cmdword with
  | .error _ => none
  | .ok i => some i

/-- The bytes of a command's destination range that lie in system memory: all of `outBytes` unless the range passes the top
of the address space, where the command fails (20_memory.md R73, 60_exceptions.md R218). -/
def destBytes (i : Instr) (s : State) : Nat := min (outBytes i s) (Config.addrLimit - dstBase s)

/-- The bytes of the source range that lie in system memory (20_memory.md R73). -/
def sourceBytes (s : State) : Nat := min (msgLen s) (Config.addrLimit - srcBase s)

/-- Address `a` lies in the destination range of the running command (70_reset_and_hazards.md R246, log 8). -/
def inDestination (s : State) (a : Nat) : Bool :=
  match runningCommand s with
  | none => false
  | some i => inRange (dstBase s) (destBytes i s) a

end Sys2Proof.Machine
end

