-- ==== Sys2Proof/Machine/Ops.lean ====
section
/-! DEFINITION. The shared operations: system memory, the memory port, the chaining registers, acceptance, completion (which
is where an error is taken), and reset. -/

namespace Sys2Proof.Machine

/-! ### System memory (20_memory.md R60, R62) -/

/-- What an address that the list does not hold reads as. DESIGN CHOICE (log 3), unsafe: the spec gives memory no
contents. -/
def unlistedByte : Byte := 0

/-- The byte at an address. -/
def readByte : List Host.Cell → Nat → Byte
  | [], _ => unlistedByte
  | (b, v) :: m, a => if a = b then v else readByte m a

/-- Memory after a byte is written; the canonical form is kept. -/
def writeByte : List Host.Cell → Nat → Byte → List Host.Cell
  | [], a, v => if v = unlistedByte then [] else [(a, v)]
  | (b, u) :: m, a, v =>
    if a < b then if v = unlistedByte then (b, u) :: m else (a, v) :: (b, u) :: m
    else if a = b then if v = unlistedByte then m else (a, v) :: m
    else (b, u) :: writeByte m a v

/-- Memory after bytes are written from `a` up, ascending. -/
def writeBytes : List Host.Cell → Nat → List Byte → List Host.Cell
  | m, _, [] => m
  | m, a, v :: vs => writeBytes (writeByte m a v) (a + 1) vs

/-- The canonical form: addresses strictly rising and inside the address space, no entry equal to what an unlisted address
reads as. -/
abbrev Memory.wf (m : List Host.Cell) : Prop :=
  m.Pairwise (fun c d => c.1 < d.1) ∧ ∀ c ∈ m, c.2 ≠ unlistedByte ∧ c.1 < Config.addrLimit

/-! ### The memory port (20_memory.md R64, R65) -/

/-- The address of an access. -/
def accessAddr : Access → Nat
  | .read a => a
  | .write a => a

/-- The memory answers this access with a bus error (20_memory.md R64, R65, U15, log 4). -/
def errs (m : List ErrRegion) (x : Access) : Bool :=
  m.any fun r =>
    decide (r.lo ≤ accessAddr x ∧ accessAddr x ≤ r.hi) &&
      match x with
      | .read _ => r.onRead
      | .write _ => r.onWrite

/-- The accesses made of a planned list, up to and with the first that errs, and that one's address (60_exceptions.md R216,
R220). -/
def runPort (m : List ErrRegion) : List Access → List Access × Option Nat
  | [] => ([], none)
  | x :: xs => if errs m x then ([x], some (accessAddr x)) else (x :: (runPort m xs).1, (runPort m xs).2)

/-- What the engine's read of a source byte returns: the byte memory holds, or any value when another agent wrote it since
acceptance (20_memory.md R64, 70_reset_and_hazards.md R245, log 10). -/
def sourceByte (s : State) (a : Nat) : Byte := if a ∈ s.raced then Config.freeRead s.free a else readByte s.mem a

/-- M, the message: bytes src .. src+L-1 (20_memory.md R62). -/
def message (s : State) : List Byte := (List.range (msgLen s)).map fun q => sourceByte s (srcBase s + q)

/-- Another agent wrote a byte of the source range since acceptance (70_reset_and_hazards.md R245). -/
def sourceRaced (s : State) : Bool := s.raced.any (inRange (srcBase s) (msgLen s))

/-- The message as a command that has read all of it sees it once its races are known: any value for a source byte another
agent wrote since acceptance, before or after the engine's read of it, and what the engine read for the others
(70_reset_and_hazards.md R245, U9, log 10). -/
def racedMessage (s : State) : List Byte :=
  (List.range (msgLen s)).map fun q =>
    if srcBase s + q ∈ s.raced then Config.freeRead s.free (srcBase s + q) else s.got.getD q 0

/-! ### The chaining registers (10_state.md R35) -/

/-- H0..H3, MD5's chaining state. -/
def md5H4 (s : State) : Md5State := { a := s.h0, b := s.h1, c := s.h2, d := s.h3 }

/-- H0..H3 written; H4 is left alone (41_md5.md R152). -/
def setMd5 (h : Md5State) (s : State) : State := { s with h0 := h.a, h1 := h.b, h2 := h.c, h3 := h.d }

/-- H0..H4, SHA-1's chaining state. -/
def sha1H5 (s : State) : Sha1State := { a := s.h0, b := s.h1, c := s.h2, d := s.h3, e := s.h4 }

/-- H0..H4 written. -/
def setSha1 (h : Sha1State) (s : State) : State :=
  { s with h0 := h.a, h1 := h.b, h2 := h.c, h3 := h.d, h4 := h.e }

/-- A block's result into H0..H3, and BLKCNT + 1 modulo 2^64 (41_md5.md R142, 10_state.md R33). -/
def setMd5Block (h : Md5State) (s : State) : State := { setMd5 h s with blkcnt := s.blkcnt + 1 }

/-- A block's result into H0..H4, and BLKCNT + 1 modulo 2^64 (42_sha1.md R173, 10_state.md R33). -/
def setSha1Block (h : Sha1State) (s : State) : State := { setSha1 h s with blkcnt := s.blkcnt + 1 }

/-! ### Acceptance (43_control.md R193) -/

/-- The engine's internal state once a word is accepted (10_state.md R44, 43_control.md R193). -/
def latch (w : Word) (s : State) : Engine :=
  { s.eng with cmdword := w, sha1Le := s.ctrl.sha1Le, src := s.src, len := s.len, dst := s.dst, result := none }

/-- `accept(w)` (43_control.md R193). -/
def accept (w : Word) (s : State) : State :=
  { s with status := statusAccept s.status, outlen := 0, phase := .check, eng := latch w s, raced := [], got := [] }

/-! ### Unspecified values (log 5) -/

/-- The engine's internal state where the spec leaves it unspecified (10_state.md R40, U12, log 7). -/
def freeEngine (n : Nat) : Engine :=
  { cmdword := Config.freeWord n 5, sha1Le := Config.freeBit n
    src := Config.freeWord64 n 1, len := Config.freeWord64 n 2, dst := Config.freeWord64 n 3
    a := Config.freeWord n 6, b := Config.freeWord n 7, c := Config.freeWord n 8, d := Config.freeWord n 9
    e := Config.freeWord n 10
    s0 := Config.freeWord n 11, s1 := Config.freeWord n 12, s2 := Config.freeWord n 13, s3 := Config.freeWord n 14
    s4 := Config.freeWord n 15
    x := Vector.ofFn fun j => Config.freeWord n (16 + j.val)
    w := Vector.ofFn fun j => Config.freeWord n (32 + j.val)
    t := Config.freeNat n 0, q := Config.freeNat n 1, p := Config.freeNat n 2, k := Config.freeNat n 3
    result := none }

/-- An unspecified block buffer (U6). -/
def freeBlock (n : Nat) : Block := Vector.ofFn fun j => Config.freeByte n (Config.addrLimit + j.val)

/-- Memory with any value at every byte of a range. -/
def scrambleRange (n : Nat) (m : List Host.Cell) (base len : Nat) : List Host.Cell :=
  (List.range len).foldl (fun m k => writeByte m (base + k) (Config.freeByte n (base + k))) m

/-- Memory with any value at the listed addresses. -/
def scrambleAt (n : Nat) (m : List Host.Cell) (as : List Nat) : List Host.Cell :=
  as.foldl (fun m a => writeByte m a (Config.freeByte n a)) m

/-- The destination range left with any value, and the source range too when a PAD's ranges overlap (60_exceptions.md R219,
70_reset_and_hazards.md R241, 40_padding.md R118, log 9). After a BUS error of a HASH whose digest range overlaps its source,
R219 calls the shared bytes both unspecified and unchanged; that they are left with any value is a DESIGN CHOICE (log 24),
safe. -/
def scrambleOutput (i : Instr) (s : State) : List Host.Cell :=
  let m := scrambleRange s.free s.mem (dstBase s) (destBytes i s)
  if padOverlaps i s then scrambleRange s.free m (srcBase s) (sourceBytes s) else m

/-- The destination bytes another agent wrote since acceptance, left with any value (70_reset_and_hazards.md R246). -/
def scrambleRaced (i : Instr) (s : State) : State :=
  { s with mem := scrambleAt s.free s.mem (s.raced.filter (inRange (dstBase s) (destBytes i s))) }

/-- The registers a HASH writes, left with any value by a bus error (60_exceptions.md R219, U6); H4 only for SHA-1
(10_state.md R51). -/
def scrambleRegs (i : Instr) (s : State) : State :=
  let n := s.free
  match i with
  | .hashMd5 =>
    { s with
      h0 := Config.freeWord n 0, h1 := Config.freeWord n 1, h2 := Config.freeWord n 2, h3 := Config.freeWord n 3
      blk := freeBlock n, blkcnt := Config.freeWord64 n 0 }
  | .hashSha1 =>
    { s with
      h0 := Config.freeWord n 0, h1 := Config.freeWord n 1, h2 := Config.freeWord n 2, h3 := Config.freeWord n 3
      h4 := Config.freeWord n 4
      blk := freeBlock n, blkcnt := Config.freeWord64 n 0 }
  | .nop => s
  | .initMd5 => s
  | .initSha1 => s
  | .compressMd5 => s
  | .compressSha1 => s
  | .padP512 => s
  | .padP1024 => s
  | .padP512le => s

/-! ### Completion, where an error is taken (43_control.md R196, 60_exceptions.md R216) -/

/-- ERRADDR after a result: written only for BUS (10_state.md R34). -/
def errAddrAfter (r : Option CmdError) (old : Word64) : Word64 :=
  match r with
  | some (.bus a) => BitVec.ofNat 64 a
  | some .size => old
  | some .cmd => old
  | some .addr => old
  | none => old

/-- `complete(result)` (43_control.md R196); `out` is OUTLEN of a success. What the engine's internal state then holds is
unspecified (10_state.md R40). -/
def finish (out : Nat) (r : Option CmdError) (s : State) : State :=
  { s with
    status := statusComplete r s.status
    outlen := if r.isNone then BitVec.ofNat 64 out else s.outlen
    erraddr := errAddrAfter r s.erraddr
    phase := .idle, eng := freeEngine s.free, raced := [], got := [], free := s.free + 1 }

/-- What the hazards leave unspecified at completion: after BUS the destination range and the written registers
(60_exceptions.md R219); after a PAD whose ranges overlap, both ranges (40_padding.md R118); else the destination bytes
another agent wrote (70_reset_and_hazards.md R246), and those alone after a failed check (60_exceptions.md R217, log 8). -/
def unsettle (i : Instr) (r : Option CmdError) (s : State) : State :=
  match r with
  | some (.bus _) => { scrambleRegs i s with mem := scrambleOutput i s }
  | some .size => scrambleRaced i s
  | some .cmd => s
  | some .addr => scrambleRaced i s
  | none => if padOverlaps i s then { s with mem := scrambleOutput i s } else scrambleRaced i s

/-- The end of command `i` with a result. -/
def complete (i : Instr) (r : Option CmdError) (s : State) : State := finish (outBytes i s) r (unsettle i r s)

/-- The end of an illegal command: ERRCODE = CMD and no other effect (30_encoding.md R91). -/
def completeIllegal (s : State) : State := finish 0 (some .cmd) s

/-- A command that accesses memory: the checks, then its planned accesses, then its work if none of them errs
(60_exceptions.md R217, R219). -/
def runChecked (i : Instr) (work : State → State) (s : State) : State :=
  match checkOperands i s with
  | some e => complete i (some e) s
  | none =>
    let p := runPort s.busMap (portPlan i s)
    match p.2 with
    | some a => complete i (some (.bus a)) { s with port := s.port ++ p.1 }
    | none => complete i none (work { s with port := s.port ++ p.1 })

/-! ### Reset (70_reset_and_hazards.md R240, R241) -/

/-- System memory when reset comes: the bytes of a running command's output hold any value, all others are kept
(70_reset_and_hazards.md R241, R242, log 8, log 9). R242 leaves to the memory whether it finishes a write that was in flight,
and gives no time for it; that the memory has finished or dropped it by the end of the reset action, so that no later host
write is overwritten by it, is a DESIGN CHOICE (log 20), unsafe. -/
def resetMemory (s : State) : List Host.Cell :=
  if s.status.busy then
    match runningCommand s with
    | none => s.mem
    | some i => scrambleOutput i s
  else s.mem

/-- The block's state after reset is applied (10_state.md R50); the other agents keep theirs (70_reset_and_hazards.md
R242), and the internal state is unspecified. -/
def applyReset (s : State) : State :=
  { State.reset with
    eng := freeEngine s.free
    mem := resetMemory s, busMap := s.busMap, rst := s.rst
    agenda := s.agenda, replies := s.replies, port := s.port, free := s.free + 1 }

end Sys2Proof.Machine
end

