-- ==== Sys2Proof/Machine/Control.lean ====
section
/-! DEFINITION. NOP (43_control.md R200). -/

namespace Sys2Proof.Machine

/-- NOP: completes, and does nothing else (43_control.md R200). -/
def execNop (s : State) : Host.Outcome State Fault Refusal := .next (complete .nop none s)

end Sys2Proof.Machine
end

