-- ==== Sys2Proof/Machine/Md5Fn.lean ====
section
/-! DEFINITION. The MD5 functions (41_md5.md, sections 1 to 5). -/

namespace Sys2Proof.Machine

/-- F (41_md5.md R126). -/
def md5F (b c d : Word) : Word := (b &&& c) ||| (~~~b &&& d)

/-- G (41_md5.md R127). -/
def md5G (b c d : Word) : Word := (b &&& d) ||| (c &&& ~~~d)

/-- H (41_md5.md R128). -/
def md5H (b c d : Word) : Word := b ^^^ c ^^^ d

/-- I (41_md5.md R129). -/
def md5I (b c d : Word) : Word := c ^^^ (b ||| ~~~d)

/-- The round function of step `i`, by `i div 16` (41_md5.md R134). -/
def md5Fn (i : Nat) : Word → Word → Word → Word :=
  match i / 16 with
  | 0 => md5F
  | 1 => md5G
  | 2 => md5H
  | _ => md5I

/-- The shift amounts, four to a round (41_md5.md R130). -/
def md5ShiftTable : List (List Nat) :=
  [[7, 12, 17, 22], [5, 9, 14, 20], [4, 11, 16, 23], [6, 10, 15, 21]]

/-- S[i] = SC[i div 16][i mod 4] (41_md5.md R130). -/
def md5Shift (i : Nat) : Nat := (md5ShiftTable.getD (i / 16) []).getD (i % 4) 0

/-- The additive constants of round 1 (41_md5.md R133). -/
def md5K1 : List Word :=
  [0xD76AA478, 0xE8C7B756, 0x242070DB, 0xC1BDCEEE, 0xF57C0FAF, 0x4787C62A, 0xA8304613, 0xFD469501,
   0x698098D8, 0x8B44F7AF, 0xFFFF5BB1, 0x895CD7BE, 0x6B901122, 0xFD987193, 0xA679438E, 0x49B40821]

/-- The additive constants of round 2 (41_md5.md R133). -/
def md5K2 : List Word :=
  [0xF61E2562, 0xC040B340, 0x265E5A51, 0xE9B6C7AA, 0xD62F105D, 0x02441453, 0xD8A1E681, 0xE7D3FBC8,
   0x21E1CDE6, 0xC33707D6, 0xF4D50D87, 0x455A14ED, 0xA9E3E905, 0xFCEFA3F8, 0x676F02D9, 0x8D2A4C8A]

/-- The additive constants of round 3 (41_md5.md R133). -/
def md5K3 : List Word :=
  [0xFFFA3942, 0x8771F681, 0x6D9D6122, 0xFDE5380C, 0xA4BEEA44, 0x4BDECFA9, 0xF6BB4B60, 0xBEBFBC70,
   0x289B7EC6, 0xEAA127FA, 0xD4EF3085, 0x04881D05, 0xD9D4D039, 0xE6DB99E5, 0x1FA27CF8, 0xC4AC5665]

/-- The additive constants of round 4 (41_md5.md R133). -/
def md5K4 : List Word :=
  [0xF4292244, 0x432AFF97, 0xAB9423A7, 0xFC93A039, 0x655B59C3, 0x8F0CCC92, 0xFFEFF47D, 0x85845DD1,
   0x6FA87E4F, 0xFE2CE6E0, 0xA3014314, 0x4E0811A1, 0xF7537E82, 0xBD3AF235, 0x2AD7D2BB, 0xEB86D391]

/-- K[i] (41_md5.md R131, R133). -/
def md5K (i : Nat) : Word := (md5K1 ++ md5K2 ++ md5K3 ++ md5K4).getD i 0

/-- idx(i), the message word of step `i` (41_md5.md R132). -/
def md5Idx (i : Nat) : Nat :=
  match i / 16 with
  | 0 => i % 16
  | 1 => (1 + 5 * (i % 16)) % 16
  | 2 => (5 + 3 * (i % 16)) % 16
  | _ => (7 * (i % 16)) % 16

/-- The message word of step `i`, `X[idx(i)]` (41_md5.md R132). -/
def md5Word (x : Vector Word 16) (i : Nat) : Word := x.toList.getD (md5Idx i) 0

/-- MD5_STEP(i), one simultaneous assignment (41_md5.md R134, 70_reset_and_hazards.md R253). -/
def md5Step (x : Vector Word 16) (i : Nat) (w : Md5State) : Md5State :=
  let tmp := w.a + md5Fn i w.b w.c w.d + md5Word x i + md5K i
  { a := w.d, b := w.b + rol32 tmp (md5Shift i), c := w.b, d := w.c }

/-- Steps 0 .. n-1 in order (41_md5.md R141). -/
def md5Steps (x : Vector Word 16) (n : Nat) (w : Md5State) : Md5State :=
  (List.range n).foldl (fun w i => md5Step x i w) w

/-- X[j] = le32(BLK, 4j) (41_md5.md R140). -/
def md5Words (blk : Block) : Vector Word 16 :=
  Vector.ofFn fun j => le32 blk[4 * j.val] blk[4 * j.val + 1] blk[4 * j.val + 2] blk[4 * j.val + 3]

/-- The final addition, each word independently (41_md5.md R142). -/
def md5Add (s w : Md5State) : Md5State :=
  { a := s.a + w.a, b := s.b + w.b, c := s.c + w.c, d := s.d + w.d }

/-- `md5_compress` (41_md5.md R141). -/
@[irreducible] def md5Compress (h : Md5State) (blk : Block) : Md5State := md5Add h (md5Steps (md5Words blk) 64 h)

/-- IV_MD5 (41_md5.md R143; general knowledge of the spec's, log 13). -/
def md5Iv : Md5State := { a := 0x67452301, b := 0xEFCDAB89, c := 0x98BADCFE, d := 0x10325476 }

/-- `md5_digest_bytes` (41_md5.md R145). -/
def md5DigestBytes (h : Md5State) : List Byte :=
  leBytes h.a.toNat 4 ++ leBytes h.b.toNat 4 ++ leBytes h.c.toNat 4 ++ leBytes h.d.toNat 4

/-- The chaining state after the first `n` blocks of a padded stream (41_md5.md R144). -/
def md5Chain (pd : List Byte) (n : Nat) : Md5State :=
  (List.range n).foldl (fun h k => md5Compress h (streamBlock pd k)) md5Iv

/-- `md5(M)`, with `none` for the failure SIZE of its padding (41_md5.md R144). -/
def md5 (m : List Byte) : Option (List Byte) :=
  (pad .p512le m).map fun pd => md5DigestBytes (md5Chain pd (pd.length / 64))

end Sys2Proof.Machine
end

