-- ==== Sys2Proof/Machine/Md5.lean ====
section
/-! DEFINITION. The MD5 commands (41_md5.md, section 6). -/

namespace Sys2Proof.Machine

/-- INIT_H for MD5: H0..H3 <- IV_MD5, BLKCNT <- 0 (10_state.md R47, 41_md5.md R146). -/
def initMd5Regs (s : State) : State := { setMd5 md5Iv s with blkcnt := 0 }

/-- One block of MD5 from BLK into H0..H3, BLKCNT + 1 modulo 2^64 (41_md5.md R147, 10_state.md R33). -/
def compressMd5Regs (s : State) : State := setMd5Block (md5Compress (md5H4 s) s.blk) s

/-- What a HASH.MD5 of a message leaves (41_md5.md R148): H0..H3, BLKCNT, BLK, and the digest at dst. -/
def hashMd5Of (m : List Byte) (s : State) : State :=
  let pd := padBytes .p512le m
  let n := pd.length / 64
  { setMd5 (md5Chain pd n) s with
    blkcnt := BitVec.ofNat 64 n
    blk := streamBlock pd (n - 1)
    mem := writeBytes s.mem (dstBase s) (md5DigestBytes (md5Chain pd n)) }

/-- A whole HASH.MD5 whose accesses all succeed (41_md5.md R148). -/
def hashMd5Work (s : State) : State := hashMd5Of (message s) s

/-- INIT.MD5 (41_md5.md R146). -/
def execInitMd5 (s : State) : Host.Outcome State Fault Refusal := .next (complete .initMd5 none (initMd5Regs s))

/-- COMPRESS.MD5 (41_md5.md R147). -/
def execCompressMd5 (s : State) : Host.Outcome State Fault Refusal :=
  .next (complete .compressMd5 none (compressMd5Regs s))

/-- HASH.MD5 (41_md5.md R148, R150). -/
def execHashMd5 (s : State) : Host.Outcome State Fault Refusal := .next (runChecked .hashMd5 hashMd5Work s)

end Sys2Proof.Machine
end

