-- ==== Sys2Proof/Machine/Padding.lean ====
section
/-! DEFINITION. The PAD commands (40_padding.md, section 2). -/

namespace Sys2Proof.Machine

/-- What a PAD of a message leaves: the padded buffer at dst (40_padding.md R113). -/
def padOf (g : Geom) (m : List Byte) (s : State) : State :=
  { s with mem := writeBytes s.mem (dstBase s) (padBytes g m) }

/-- A PAD whose accesses all succeed (40_padding.md R113). -/
def padWork (g : Geom) (s : State) : State := padOf g (message s) s

/-- PAD.P512 (40_padding.md R115). -/
def execPadP512 (s : State) : Host.Outcome State Fault Refusal := .next (runChecked .padP512 (padWork .p512) s)

/-- PAD.P1024 (40_padding.md R116). -/
def execPadP1024 (s : State) : Host.Outcome State Fault Refusal := .next (runChecked .padP1024 (padWork .p1024) s)

/-- PAD.P512LE (40_padding.md R117). -/
def execPadP512le (s : State) : Host.Outcome State Fault Refusal := .next (runChecked .padP512le (padWork .p512le) s)

end Sys2Proof.Machine
end

