-- ==== Sys2Proof/Machine/Sha1Fn.lean ====
section
/-! DEFINITION. The SHA-1 functions (42_sha1.md, sections 1 to 5). -/

namespace Sys2Proof.Machine

/-- Choose, band 1 (42_sha1.md R163, R164). -/
def sha1Choose (b c d : Word) : Word := (b &&& c) ||| (~~~b &&& d)

/-- Parity, bands 2 and 4 (42_sha1.md R163, R165). -/
def sha1Parity (b c d : Word) : Word := b ^^^ c ^^^ d

/-- Majority, band 3 (42_sha1.md R163, R165). -/
def sha1Majority (b c d : Word) : Word := (b &&& c) ||| (b &&& d) ||| (c &&& d)

/-- The function of the band of step `x` (42_sha1.md R163). -/
def sha1BandFn (x : Nat) : Word → Word → Word → Word :=
  if x < 20 then sha1Choose else if x < 40 then sha1Parity else if x < 60 then sha1Majority else sha1Parity

/-- The constant of the band of step `x` (42_sha1.md R163). -/
def sha1BandK (x : Nat) : Word :=
  if x < 20 then 0x5A827999 else if x < 40 then 0x6ED9EBA1 else if x < 60 then 0x8F1BBCDC else 0xCA62C1D6

/-- Schedule word `i` of a schedule being built. -/
def scheduleWord (w : Vector Word 80) (i : Nat) : Word := w.toList.getD i 0

/-- W[0..15], big-endian from the block; the rest not yet expanded (42_sha1.md R160). -/
def sha1Load (blk : Block) : Vector Word 80 :=
  Vector.ofFn fun j =>
    if h : j.val < 16 then be32 blk[4 * j.val] blk[4 * j.val + 1] blk[4 * j.val + 2] blk[4 * j.val + 3] else 0

/-- W[x] <- rol32(W[x-3] ^ W[x-8] ^ W[x-14] ^ W[x-16], 1) (42_sha1.md R161). -/
def sha1Expand (w : Vector Word 80) (x : Nat) : Vector Word 80 :=
  w.setIfInBounds x
    (rol32 (scheduleWord w (x - 3) ^^^ scheduleWord w (x - 8) ^^^ scheduleWord w (x - 14) ^^^ scheduleWord w (x - 16)) 1)

/-- The schedule of a block, x ascending in 16..79 (42_sha1.md R160, R161). -/
def sha1Schedule (blk : Block) : Vector Word 80 :=
  (List.range 64).foldl (fun w i => sha1Expand w (16 + i)) (sha1Load blk)

/-- SHA1_STEP(x), one simultaneous assignment (42_sha1.md R166, 70_reset_and_hazards.md R253). -/
def sha1Step (w : Vector Word 80) (x : Nat) (v : Sha1State) : Sha1State :=
  let temp := rol32 v.a 5 + v.e + scheduleWord w x + sha1BandFn x v.b v.c v.d + sha1BandK x
  { a := temp, b := v.a, c := rol32 v.b 30, d := v.c, e := v.d }

/-- Steps 0 .. n-1 in order (42_sha1.md R172). -/
def sha1Steps (w : Vector Word 80) (n : Nat) (v : Sha1State) : Sha1State :=
  (List.range n).foldl (fun v x => sha1Step w x v) v

/-- The final addition (42_sha1.md R173). -/
def sha1Add (s v : Sha1State) : Sha1State :=
  { a := s.a + v.a, b := s.b + v.b, c := s.c + v.c, d := s.d + v.d, e := s.e + v.e }

/-- `sha1_compress` (42_sha1.md R172). -/
@[irreducible] def sha1Compress (h : Sha1State) (blk : Block) : Sha1State := sha1Add h (sha1Steps (sha1Schedule blk) 80 h)

/-- IV_SHA1 (42_sha1.md R174; general knowledge of the spec's, log 13). -/
def sha1Iv : Sha1State :=
  { a := 0x67452301, b := 0xEFCDAB89, c := 0x98BADCFE, d := 0x10325476, e := 0xC3D2E1F0 }

/-- A word's four digest bytes in the selected order (42_sha1.md R179). -/
def sha1WordBytes (le : Bool) (h : Word) : List Byte := if le then leBytes h.toNat 4 else beBytes h.toNat 4

/-- `sha1_digest_bytes` (42_sha1.md R179). -/
def sha1DigestBytes (h : Sha1State) (le : Bool) : List Byte :=
  sha1WordBytes le h.a ++ sha1WordBytes le h.b ++ sha1WordBytes le h.c ++ sha1WordBytes le h.d ++ sha1WordBytes le h.e

/-- The chaining state after the first `n` blocks of a padded stream (42_sha1.md R175). -/
def sha1Chain (pd : List Byte) (n : Nat) : Sha1State :=
  (List.range n).foldl (fun h k => sha1Compress h (streamBlock pd k)) sha1Iv

/-- `sha1(M, le)`, with `none` for the failure SIZE of its padding (42_sha1.md R175). -/
def sha1 (m : List Byte) (le : Bool) : Option (List Byte) :=
  (pad .p512 m).map fun pd => sha1DigestBytes (sha1Chain pd (pd.length / 64)) le

end Sys2Proof.Machine
end

