-- ==== Sys2Proof/Machine/Sha1.lean ====
section
/-! DEFINITION. The SHA-1 commands (42_sha1.md, section 6). -/

namespace Sys2Proof.Machine

/-- INIT_H for SHA-1: H0..H4 <- IV_SHA1, BLKCNT <- 0 (10_state.md R47, 42_sha1.md R180). -/
def initSha1Regs (s : State) : State := { setSha1 sha1Iv s with blkcnt := 0 }

/-- One block of SHA-1 from BLK into H0..H4, BLKCNT + 1 modulo 2^64 (42_sha1.md R181, 10_state.md R33). -/
def compressSha1Regs (s : State) : State := setSha1Block (sha1Compress (sha1H5 s) s.blk) s

/-- What a HASH.SHA1 of a message leaves (42_sha1.md R182): H0..H4, BLKCNT, BLK, and the digest at dst in the latched byte
order (42_sha1.md R179). -/
def hashSha1Of (m : List Byte) (s : State) : State :=
  let pd := padBytes .p512 m
  let n := pd.length / 64
  { setSha1 (sha1Chain pd n) s with
    blkcnt := BitVec.ofNat 64 n
    blk := streamBlock pd (n - 1)
    mem := writeBytes s.mem (dstBase s) (sha1DigestBytes (sha1Chain pd n) s.eng.sha1Le) }

/-- A whole HASH.SHA1 whose accesses all succeed (42_sha1.md R182). -/
def hashSha1Work (s : State) : State := hashSha1Of (message s) s

/-- INIT.SHA1 (42_sha1.md R180). -/
def execInitSha1 (s : State) : Host.Outcome State Fault Refusal := .next (complete .initSha1 none (initSha1Regs s))

/-- COMPRESS.SHA1 (42_sha1.md R181). -/
def execCompressSha1 (s : State) : Host.Outcome State Fault Refusal :=
  .next (complete .compressSha1 none (compressSha1Regs s))

/-- HASH.SHA1 (42_sha1.md R182, R183). -/
def execHashSha1 (s : State) : Host.Outcome State Fault Refusal := .next (runChecked .hashSha1 hashSha1Work s)

end Sys2Proof.Machine
end

