-- ==== Sys2Proof/Machine/Dispatch.lean ====
section
/-! DEFINITION. One arm per command: the effect of an accepted command from phase CHECK to its completion
(43_control.md R194 to R196). -/

namespace Sys2Proof.Machine

def exec (i : Instr) (s : State) : Host.Outcome State Fault Refusal :=
  match i with
  | .nop => Sys2Proof.Machine.execNop s
  | .initMd5 => Sys2Proof.Machine.execInitMd5 s
  | .initSha1 => Sys2Proof.Machine.execInitSha1 s
  | .compressMd5 => Sys2Proof.Machine.execCompressMd5 s
  | .compressSha1 => Sys2Proof.Machine.execCompressSha1 s
  | .hashMd5 => Sys2Proof.Machine.execHashMd5 s
  | .hashSha1 => Sys2Proof.Machine.execHashSha1 s
  | .padP512 => Sys2Proof.Machine.execPadP512 s
  | .padP1024 => Sys2Proof.Machine.execPadP1024 s
  | .padP512le => Sys2Proof.Machine.execPadP512le s

end Sys2Proof.Machine
end

