-- ==== Sys2Proof/Machine/Engine.lean ====
section
/-! DEFINITION. The sequencer, one engine step at a time (10_state.md R47, R48, 70_reset_and_hazards.md R256). `exec` is the
same work merged into one step, as 00_scope.md R13 allows (log 1). A phase or an index that R48 never reaches is the
invariant violation of 60_exceptions.md R221, a fault. -/

namespace Sys2Proof.Machine

/-- The first work phase of a command, after CHECK (10_state.md R48). -/
def firstPhase : Instr → Phase
  | .nop => .complete
  | .initMd5 => .initH
  | .initSha1 => .initH
  | .compressMd5 => .loadw
  | .compressSha1 => .loadw
  | .hashMd5 => .initH
  | .hashSha1 => .initH
  | .padP512 => .copy
  | .padP1024 => .copy
  | .padP512le => .copy

/-- The phase after INIT_H, for the commands that have one (10_state.md R48). -/
def afterInit : Instr → Option (Alg × Phase)
  | .initMd5 => some (.md5, .complete)
  | .initSha1 => some (.sha1, .complete)
  | .hashMd5 => some (.md5, .fill)
  | .hashSha1 => some (.sha1, .fill)
  | .nop => none
  | .compressMd5 => none
  | .compressSha1 => none
  | .padP512 => none
  | .padP1024 => none
  | .padP512le => none

/-- The engine of a command that compresses blocks (10_state.md R48). -/
def blockAlg : Instr → Option Alg
  | .compressMd5 => some .md5
  | .compressSha1 => some .sha1
  | .hashMd5 => some .md5
  | .hashSha1 => some .sha1
  | .nop => none
  | .initMd5 => none
  | .initSha1 => none
  | .padP512 => none
  | .padP1024 => none
  | .padP512le => none

/-- The digest bytes a HASH writes from its chaining registers (41_md5.md R145, 42_sha1.md R179). -/
def digestBytes (s : State) : Alg → List Byte
  | .md5 => md5DigestBytes (md5H4 s)
  | .sha1 => sha1DigestBytes (sha1H5 s) s.eng.sha1Le

/-- The geometry and the engine of a HASH. -/
def hashOf : Instr → Option (Geom × Alg)
  | .hashMd5 => some (.p512le, .md5)
  | .hashSha1 => some (.p512, .sha1)
  | .nop => none
  | .initMd5 => none
  | .initSha1 => none
  | .compressMd5 => none
  | .compressSha1 => none
  | .padP512 => none
  | .padP1024 => none
  | .padP512le => none

/-- The geometry of a PAD. -/
def padGeom : Instr → Option Geom
  | .padP512 => some .p512
  | .padP1024 => some .p1024
  | .padP512le => some .p512le
  | .nop => none
  | .initMd5 => none
  | .initSha1 => none
  | .compressMd5 => none
  | .compressSha1 => none
  | .hashMd5 => none
  | .hashSha1 => none

/-- `raise Error` inside a phase: the phase stops and the engine goes to COMPLETE (60_exceptions.md R216). -/
def raiseError (e : CmdError) (s : State) : State := { s with phase := .complete, eng := { s.eng with result := some e } }

/-- `MemRead(a, 1)`, recorded, and what the phase does with the byte (20_memory.md R64, 60_exceptions.md R219). -/
def engineRead (a : Nat) (use : Byte → State → Host.Outcome State Fault Refusal) (s : State) :
    Host.Outcome State Fault Refusal :=
  if Config.addrLimit ≤ a then .fault (.noSuchAddress a)
  else
    let s1 := { s with port := s.port ++ [Access.read a] }
    if errs s.busMap (.read a) then .next (raiseError (.bus a) s1)
    else use (sourceByte s a) { s1 with got := s.got ++ [sourceByte s a] }

/-- `MemWrite(a, 1, v)` and what the phase does next (20_memory.md R65, 60_exceptions.md R219). -/
def engineWrite (a : Nat) (v : Byte) (next : State → State) (s : State) : Host.Outcome State Fault Refusal :=
  if Config.addrLimit ≤ a then .fault (.noSuchAddress a)
  else
    let s1 := { s with port := s.port ++ [Access.write a] }
    if errs s.busMap (.write a) then .next (raiseError (.bus a) s1)
    else .next (next { s1 with mem := writeByte s1.mem a v })

/-- CHECK: the decoder, then the checks; a failing one goes to COMPLETE with its error (10_state.md R47, 43_control.md R194,
60_exceptions.md R217). -/
def tickCheck (s : State) : Host.Outcome State Fault Refusal :=
  match decode s.eng.cmdword with
  | .error _ => .next (raiseError .cmd s)
  | .ok i =>
    match checkOperands i s with
    | some e => .next (raiseError e s)
    | none =>
      .next { s with
        phase := firstPhase i
        eng := { s.eng with q := 0, p := paddedLen i s, k := 0, result := none }
        got := [] }

/-- INIT_H: `H <- IV(alg); BLKCNT <- 0` (10_state.md R47). -/
def tickInitH (i : Instr) (s : State) : Host.Outcome State Fault Refusal :=
  match afterInit i with
  | some (.md5, p) => .next { initMd5Regs s with phase := p }
  | some (.sha1, p) => .next { initSha1Regs s with phase := p }
  | none => .fault (.sequencer .initH)

/-- A byte of the padded stream lands in BLK (10_state.md R47, phase FILL). -/
def fillByte (v : Byte) (s : State) : State :=
  { s with
    blk := s.blk.set (s.eng.q % 64) v (Nat.mod_lt _ (by decide))
    phase := if (s.eng.q + 1) % 64 = 0 then .loadw else .fill
    eng := { s.eng with q := s.eng.q + 1 } }

/-- FILL: one byte, `BLK[q - 64n] <- stream byte q` (10_state.md R47, 40_padding.md R111). -/
def tickFill (i : Instr) (s : State) : Host.Outcome State Fault Refusal :=
  match hashOf i with
  | none => .fault (.sequencer .fill)
  | some (g, _) =>
    if s.eng.p ≤ s.eng.q then .fault (.sequencer .fill)
    else if s.eng.q < msgLen s then engineRead (srcBase s + s.eng.q) (fun v s1 => .next (fillByte v s1)) s
    else .next (fillByte (padTail g (msgLen s) s.eng.q) s)

/-- LOADW for MD5: the snapshot, the working state, X (41_md5.md R140, R141, 10_state.md R42). -/
def loadMd5 (s : State) : State :=
  { s with
    phase := .step
    eng := { s.eng with
      s0 := s.h0, s1 := s.h1, s2 := s.h2, s3 := s.h3
      a := s.h0, b := s.h1, c := s.h2, d := s.h3, x := md5Words s.blk, t := 0 } }

/-- LOADW for SHA-1: the snapshot, the working state, W with its expansion (42_sha1.md R160, R161, R172, 10_state.md R42). -/
def loadSha1 (s : State) : State :=
  { s with
    phase := .step
    eng := { s.eng with
      s0 := s.h0, s1 := s.h1, s2 := s.h2, s3 := s.h3, s4 := s.h4
      a := s.h0, b := s.h1, c := s.h2, d := s.h3, e := s.h4, w := sha1Schedule s.blk, t := 0 } }

/-- LOADW (10_state.md R47). -/
def tickLoadw (i : Instr) (s : State) : Host.Outcome State Fault Refusal :=
  match blockAlg i with
  | some .md5 => .next (loadMd5 s)
  | some .sha1 => .next (loadSha1 s)
  | none => .fault (.sequencer .loadw)

/-- The working state of MD5 (10_state.md R41). -/
def workMd5 (e : Engine) : Md5State := { a := e.a, b := e.b, c := e.c, d := e.d }

/-- The working state of SHA-1 (10_state.md R41). -/
def workSha1 (e : Engine) : Sha1State := { a := e.a, b := e.b, c := e.c, d := e.d, e := e.e }

/-- The snapshot of an MD5 block (10_state.md R42). -/
def snapMd5 (e : Engine) : Md5State := { a := e.s0, b := e.s1, c := e.s2, d := e.s3 }

/-- The snapshot of a SHA-1 block (10_state.md R42). -/
def snapSha1 (e : Engine) : Sha1State := { a := e.s0, b := e.s1, c := e.s2, d := e.s3, e := e.s4 }

/-- Step t of MD5 (41_md5.md R134). -/
def stepMd5 (s : State) : State :=
  let v := md5Step s.eng.x s.eng.t (workMd5 s.eng)
  { s with
    phase := if s.eng.t + 1 = 64 then .add else .step
    eng := { s.eng with a := v.a, b := v.b, c := v.c, d := v.d, t := s.eng.t + 1 } }

/-- Step t of SHA-1 (42_sha1.md R166). -/
def stepSha1 (s : State) : State :=
  let v := sha1Step s.eng.w s.eng.t (workSha1 s.eng)
  { s with
    phase := if s.eng.t + 1 = 80 then .add else .step
    eng := { s.eng with a := v.a, b := v.b, c := v.c, d := v.d, e := v.e, t := s.eng.t + 1 } }

/-- STEP: one step, with the index inside the algorithm's range (10_state.md R47, 41_md5.md R151, 42_sha1.md R176). -/
def tickStep (i : Instr) (s : State) : Host.Outcome State Fault Refusal :=
  match blockAlg i with
  | some .md5 => if s.eng.t < 64 then .next (stepMd5 s) else .fault (.stepIndex s.eng.t)
  | some .sha1 => if s.eng.t < 80 then .next (stepSha1 s) else .fault (.stepIndex s.eng.t)
  | none => .fault (.sequencer .step)

/-- ADD for MD5 (41_md5.md R142). -/
def addMd5 (s : State) : State := setMd5Block (md5Add (snapMd5 s.eng) (workMd5 s.eng)) s

/-- ADD for SHA-1 (42_sha1.md R173). -/
def addSha1 (s : State) : State := setSha1Block (sha1Add (snapSha1 s.eng) (workSha1 s.eng)) s

/-- The phase after ADD: COMPLETE for COMPRESS; FILL or OUT for HASH (10_state.md R47). -/
def afterAdd (i : Instr) (s : State) : Phase :=
  match hashOf i with
  | none => .complete
  | some _ => if s.eng.q < s.eng.p then .fill else .out

/-- ADD (10_state.md R47). -/
def tickAdd (i : Instr) (s : State) : Host.Outcome State Fault Refusal :=
  match blockAlg i with
  | some .md5 => .next { addMd5 s with phase := afterAdd i s }
  | some .sha1 => .next { addSha1 s with phase := afterAdd i s }
  | none => .fault (.sequencer .add)

/-- OUT: one digest byte (10_state.md R47). -/
def tickOut (i : Instr) (s : State) : Host.Outcome State Fault Refusal :=
  match hashOf i with
  | none => .fault (.sequencer .out)
  | some (_, alg) =>
    match (digestBytes s alg)[s.eng.k]? with
    | none => .fault (.sequencer .out)
    | some v =>
      engineWrite (dstBase s + s.eng.k) v
        (fun s1 =>
          { s1 with
            phase := if s.eng.k + 1 = outBytes i s then .complete else .out
            eng := { s1.eng with k := s.eng.k + 1 } }) s

/-- COPY: one byte, its read and its write (10_state.md R47, 40_padding.md R113). -/
def tickCopy (i : Instr) (s : State) : Host.Outcome State Fault Refusal :=
  match padGeom i with
  | none => .fault (.sequencer .copy)
  | some _ =>
    if s.eng.q < msgLen s then
      engineRead (srcBase s + s.eng.q)
        (fun v s1 =>
          engineWrite (dstBase s + s.eng.q) v
            (fun s2 => { s2 with eng := { s2.eng with q := s.eng.q + 1 } }) s1) s
    else .next { s with phase := .padw }

/-- PADW: one byte of the padding (10_state.md R47, 40_padding.md R113). -/
def tickPadw (i : Instr) (s : State) : Host.Outcome State Fault Refusal :=
  match padGeom i with
  | none => .fault (.sequencer .padw)
  | some g =>
    if s.eng.q < msgLen s then .fault (.sequencer .padw)
    else if s.eng.q < s.eng.p then
      engineWrite (dstBase s + s.eng.q) (padTail g (msgLen s) s.eng.q)
        (fun s1 => { s1 with eng := { s1.eng with q := s.eng.q + 1 } }) s
    else .next { s with phase := .complete }

/-- A work phase of the accepted command; a word that is no command has none (10_state.md R48). -/
def tickWork (p : Phase) (tick : Instr → State → Host.Outcome State Fault Refusal) (s : State) :
    Host.Outcome State Fault Refusal :=
  match decode s.eng.cmdword with
  | .ok i => tick i s
  | .error _ => .fault (.sequencer p)

/-- What command `i` leaves when its message is `m`; nothing more for a command that reads none. -/
def outputOf (i : Instr) (m : List Byte) (s : State) : State :=
  match i with
  | .hashMd5 => hashMd5Of m s
  | .hashSha1 => hashSha1Of m s
  | .padP512 => padOf .p512 m s
  | .padP1024 => padOf .p1024 m s
  | .padP512le => padOf .p512le m s
  | .nop => s
  | .initMd5 => s
  | .initSha1 => s
  | .compressMd5 => s
  | .compressSha1 => s

/-- A source byte written by another agent after the engine had read it: the read returns any value all the same, and what
depends on it is computed from that value; BLKCNT is as without the race. Nothing of it was observable before
(70_reset_and_hazards.md R245, R246, R249, 20_memory.md R76, U9, log 10). -/
def settleRaces (i : Instr) (s : State) : State :=
  if s.eng.result.isNone && sourceRaced s then
    { outputOf i (racedMessage s) s with blkcnt := s.blkcnt }
  else s

/-- COMPLETE (43_control.md R196). -/
def tickComplete (s : State) : Host.Outcome State Fault Refusal :=
  match decode s.eng.cmdword with
  | .ok i => .next (complete i s.eng.result (settleRaces i s))
  | .error _ => .next (completeIllegal s)

/-- One engine step (10_state.md R47, 70_reset_and_hazards.md R256). -/
def engineStep (s : State) : Host.Outcome State Fault Refusal :=
  match s.phase with
  | .idle => .next s
  | .check => tickCheck s
  | .initH => tickWork .initH tickInitH s
  | .fill => tickWork .fill tickFill s
  | .loadw => tickWork .loadw tickLoadw s
  | .step => tickWork .step tickStep s
  | .add => tickWork .add tickAdd s
  | .out => tickWork .out tickOut s
  | .copy => tickWork .copy tickCopy s
  | .padw => tickWork .padw tickPadw s
  | .complete => tickComplete s

/-- `n` engine steps in a row, none of another agent between them. -/
def engineSteps : Nat → State → Host.Outcome State Fault Refusal
  | 0, s => .next s
  | n + 1, s =>
    match engineStep s with
    | .next t => engineSteps n t
    | .fault f => .fault f
    | .refused r => .refused r

end Sys2Proof.Machine
end

