-- ==== Sys2Proof/Machine/Registers.lean ====
section
/-! DEFINITION. The register window: the map of 10_state.md R21, and the host's reads and writes of it (43_control.md R201,
R202). -/

namespace Sys2Proof.Machine

/-- The registers of 10_state.md R21. -/
inductive Reg where
  | id
  | version
  | caps
  | md5BlockBits
  | md5DigestBits
  | md5WordBits
  | md5MaxBitsLo
  | md5MaxBitsHi
  | sha1BlockBits
  | sha1DigestBits
  | sha1WordBits
  | sha1MaxBitsLo
  | sha1MaxBitsHi
  | cmd
  | status
  | ctrl
  | srcLo
  | srcHi
  | lenLo
  | lenHi
  | dstLo
  | dstHi
  | outlenLo
  | outlenHi
  | blkcntLo
  | blkcntHi
  | erraddrLo
  | erraddrHi
  | h0
  | h1
  | h2
  | h3
  | h4
  | blkw (j : Fin 16)
deriving DecidableEq, Repr

/-- Every register. -/
def allRegs : List Reg :=
  [.id, .version, .caps, .md5BlockBits, .md5DigestBits, .md5WordBits, .md5MaxBitsLo, .md5MaxBitsHi,
   .sha1BlockBits, .sha1DigestBits, .sha1WordBits, .sha1MaxBitsLo, .sha1MaxBitsHi,
   .cmd, .status, .ctrl, .srcLo, .srcHi, .lenLo, .lenHi, .dstLo, .dstHi,
   .outlenLo, .outlenHi, .blkcntLo, .blkcntHi, .erraddrLo, .erraddrHi, .h0, .h1, .h2, .h3, .h4,
   .blkw 0, .blkw 1, .blkw 2, .blkw 3, .blkw 4, .blkw 5, .blkw 6, .blkw 7,
   .blkw 8, .blkw 9, .blkw 10, .blkw 11, .blkw 12, .blkw 13, .blkw 14, .blkw 15]

/-- The offset column of 10_state.md R21. -/
def offsetOf : Reg → BitVec 12
  | .id => 0x000
  | .version => 0x004
  | .caps => 0x008
  | .md5BlockBits => 0x010
  | .md5DigestBits => 0x014
  | .md5WordBits => 0x018
  | .md5MaxBitsLo => 0x01C
  | .md5MaxBitsHi => 0x020
  | .sha1BlockBits => 0x030
  | .sha1DigestBits => 0x034
  | .sha1WordBits => 0x038
  | .sha1MaxBitsLo => 0x03C
  | .sha1MaxBitsHi => 0x040
  | .cmd => 0x080
  | .status => 0x084
  | .ctrl => 0x088
  | .srcLo => 0x090
  | .srcHi => 0x094
  | .lenLo => 0x098
  | .lenHi => 0x09C
  | .dstLo => 0x0A0
  | .dstHi => 0x0A4
  | .outlenLo => 0x0A8
  | .outlenHi => 0x0AC
  | .blkcntLo => 0x0B0
  | .blkcntHi => 0x0B4
  | .erraddrLo => 0x0B8
  | .erraddrHi => 0x0BC
  | .h0 => 0x0C0
  | .h1 => 0x0C4
  | .h2 => 0x0C8
  | .h3 => 0x0CC
  | .h4 => 0x0D0
  | .blkw j => 0x100 + BitVec.ofNat 12 (4 * j.val)

/-- The register at an offset; `none` for an unlisted one (10_state.md R20). -/
def regAt (off : BitVec 12) : Option Reg := allRegs.find? fun r => offsetOf r == off

/-- The system address of a window offset, `REG_BASE + off` (30_encoding.md R94, log 11). -/
def busAddress (off : BitVec 12) : Word64 := Config.regBase + off.setWidth 64

/-- The window offset of a host address, `none` outside the 4096 bytes from REG_BASE (10_state.md R20, log 11). -/
def windowOffset (a : Word64) : Option (BitVec 12) :=
  if (a - Config.regBase).toNat < Config.regWindowBytes then some ((a - Config.regBase).setWidth 12) else none

/-- BLKWj, the little-endian lane view of BLK (10_state.md R36). -/
def readBlkw (blk : Block) (j : Fin 16) : Word :=
  wordOfBytes blk[4 * j.val] blk[4 * j.val + 1] blk[4 * j.val + 2] blk[4 * j.val + 3]

/-- BLK after BLKWj is written: BLK[4j+m] <- v[8m+7:8m] (10_state.md R36). -/
def writeBlkw (blk : Block) (j : Fin 16) (v : Word) : Block :=
  (((blk.set (4 * j.val) (byteOf v.toNat 0)).set (4 * j.val + 1) (byteOf v.toNat 1)).set
    (4 * j.val + 2) (byteOf v.toNat 2)).set (4 * j.val + 3) (byteOf v.toNat 3)

/-- The value a register holds, as a settled read returns it (43_control.md R201, 10_state.md R22 to R36). -/
def readReg (r : Reg) (s : State) : Word :=
  match r with
  | .id => 0x4649564D
  | .version => 0x00000007
  | .caps => 0x0000001F
  | .md5BlockBits => 512
  | .md5DigestBits => 128
  | .md5WordBits => 32
  | .md5MaxBitsLo => lo32 Config.md5MaxInputBits
  | .md5MaxBitsHi => hi32 Config.md5MaxInputBits
  | .sha1BlockBits => 512
  | .sha1DigestBits => 160
  | .sha1WordBits => 32
  | .sha1MaxBitsLo => lo32 Config.sha1MaxInputBits
  | .sha1MaxBitsHi => hi32 Config.sha1MaxInputBits
  | .cmd => 0
  | .status => statusWord s.status
  | .ctrl => ctrlWord s.ctrl
  | .srcLo => lo32 s.src
  | .srcHi => hi32 s.src
  | .lenLo => lo32 s.len
  | .lenHi => hi32 s.len
  | .dstLo => lo32 s.dst
  | .dstHi => hi32 s.dst
  | .outlenLo => lo32 s.outlen
  | .outlenHi => hi32 s.outlen
  | .blkcntLo => lo32 s.blkcnt
  | .blkcntHi => hi32 s.blkcnt
  | .erraddrLo => lo32 s.erraddr
  | .erraddrHi => hi32 s.erraddr
  | .h0 => s.h0
  | .h1 => s.h1
  | .h2 => s.h2
  | .h3 => s.h3
  | .h4 => s.h4
  | .blkw j => readBlkw s.blk j

/-- The registers whose reads return an unspecified value while BUSY = 1 (70_reset_and_hazards.md R249, U5). -/
def unreadableWhileBusy : Reg → Bool
  | .outlenLo => true
  | .outlenHi => true
  | .blkcntLo => true
  | .blkcntHi => true
  | .erraddrLo => true
  | .erraddrHi => true
  | .h0 => true
  | .h1 => true
  | .h2 => true
  | .h3 => true
  | .h4 => true
  | .blkw _ => true
  | .id => false
  | .version => false
  | .caps => false
  | .md5BlockBits => false
  | .md5DigestBits => false
  | .md5WordBits => false
  | .md5MaxBitsLo => false
  | .md5MaxBitsHi => false
  | .sha1BlockBits => false
  | .sha1DigestBits => false
  | .sha1WordBits => false
  | .sha1MaxBitsLo => false
  | .sha1MaxBitsHi => false
  | .cmd => false
  | .status => false
  | .ctrl => false
  | .srcLo => false
  | .srcHi => false
  | .lenLo => false
  | .lenHi => false
  | .dstLo => false
  | .dstHi => false

/-- `RD(off)`'s value when the register holds one (43_control.md R201); an unlisted offset reads 0 (10_state.md R20). -/
def readOffset (off : BitVec 12) (s : State) : Word :=
  match regAt off with
  | some r => readReg r s
  | none => 0

/-- The read of this offset returns any value: one of R249's registers while BUSY = 1, or any while reset is applied
(70_reset_and_hazards.md R242, U11). -/
def readIsFree (off : BitVec 12) (s : State) : Bool :=
  s.rst || (s.status.busy && (match regAt off with
    | some r => unreadableWhileBusy r
    | none => false))

/-- An idle-only register's write, dropped while BUSY = 1 (70_reset_and_hazards.md R248). -/
def idleOnly (s written : State) : State := if s.status.busy then s else written

/-- A write to CMD: issued when idle, dropped with OVR when busy (10_state.md R25, 70_reset_and_hazards.md R247). -/
def writeCmd (v : Word) (s : State) : State :=
  if s.status.busy then { s with status := statusOverrun s.status } else accept v s

/-- `WR(off, v)` on a register (43_control.md R202). -/
def writeReg (r : Reg) (v : Word) (s : State) : State :=
  match r with
  | .cmd => writeCmd v s
  | .status => { s with status := statusW1c s.status v }
  | .ctrl => { s with ctrl := ctrlOfWord v }
  | .srcLo => idleOnly s { s with src := setLo s.src v }
  | .srcHi => idleOnly s { s with src := setHi s.src v }
  | .lenLo => idleOnly s { s with len := setLo s.len v }
  | .lenHi => idleOnly s { s with len := setHi s.len v }
  | .dstLo => idleOnly s { s with dst := setLo s.dst v }
  | .dstHi => idleOnly s { s with dst := setHi s.dst v }
  | .h0 => idleOnly s { s with h0 := v }
  | .h1 => idleOnly s { s with h1 := v }
  | .h2 => idleOnly s { s with h2 := v }
  | .h3 => idleOnly s { s with h3 := v }
  | .h4 => idleOnly s { s with h4 := v }
  | .blkw j => idleOnly s { s with blk := writeBlkw s.blk j v }
  | .id => s
  | .version => s
  | .caps => s
  | .md5BlockBits => s
  | .md5DigestBits => s
  | .md5WordBits => s
  | .md5MaxBitsLo => s
  | .md5MaxBitsHi => s
  | .sha1BlockBits => s
  | .sha1DigestBits => s
  | .sha1WordBits => s
  | .sha1MaxBitsLo => s
  | .sha1MaxBitsHi => s
  | .outlenLo => s
  | .outlenHi => s
  | .blkcntLo => s
  | .blkcntHi => s
  | .erraddrLo => s
  | .erraddrHi => s

/-- `WR(off, v)` (43_control.md R202); an unlisted offset ignores it (10_state.md R20). -/
def writeOffset (off : BitVec 12) (v : Word) (s : State) : State :=
  match regAt off with
  | some r => writeReg r v s
  | none => s

/-- A legal register access: 4 bytes at an offset that is a multiple of 4 (20_memory.md R66). -/
def legalAccess (width : Nat) (off : BitVec 12) : Bool := width == 4 && off.toNat % 4 == 0

/-- The host is answered. -/
def reply (r : Reply) (s : State) : State := { s with replies := r :: s.replies }

/-- A register read by the host (30_encoding.md R94, 20_memory.md R66, R68, 70_reset_and_hazards.md R242, R249). -/
def hostRead (width : Nat) (off : BitVec 12) (s : State) : State :=
  if legalAccess width off then
    if readIsFree off s then { reply (.word (Config.freeWord s.free 0)) s with free := s.free + 1 }
    else reply (.word (readOffset off s)) s
  else reply .busError s

/-- A register write by the host (30_encoding.md R94, 20_memory.md R66); no effect while reset is applied
(70_reset_and_hazards.md R242). -/
def hostWrite (width : Nat) (off : BitVec 12) (v : Word) (s : State) : State :=
  if legalAccess width off then
    if s.rst then reply .done s else reply .done (writeOffset off v s)
  else reply .busError s

end Sys2Proof.Machine
end

