-- ==== Sys2Proof/Machine/Schedule.lean ====
section
/-! DEFINITION. What one step of the machine does: the engine's turn, or one input of the host's (70_reset_and_hazards.md
R255, log 2). -/

namespace Sys2Proof.Machine

/-- The accepted word is decoded and run to its completion (43_control.md R194 to R196; merged, log 1). -/
def runAccepted (s : State) : Host.Outcome State Fault Refusal :=
  match decode s.eng.cmdword with
  | .ok i => exec i s
  | .error _ => .next (completeIllegal s)

/-- The engine's turn: an accepted command whole; a command already begun by engine steps, one step more; nothing when
idle. -/
def engineAct (s : State) : Host.Outcome State Fault Refusal :=
  if s.phase = .check then runAccepted s else engineStep s

/-- A byte of system memory read by the host: any value while the running command's destination holds it
(70_reset_and_hazards.md R246). -/
def hostMemRead (a : Word64) (s : State) : State :=
  if s.status.busy && inDestination s a.toNat then
    { reply (.byte (Config.freeByte s.free a.toNat)) s with free := s.free + 1 }
  else reply (.byte (readByte s.mem a.toNat)) s

/-- A byte of system memory written by the host or another agent; while a command runs the address is raced
(70_reset_and_hazards.md R245, R246). -/
def hostMemWrite (a : Word64) (v : Byte) (s : State) : State :=
  reply .done
    { s with
      mem := writeByte s.mem a.toNat v
      raced := if s.status.busy then a.toNat :: s.raced else s.raced }

/-- The reset input is driven: its assertion applies reset (70_reset_and_hazards.md R240, log 17). -/
def driveRst (level : Bool) (s : State) : State :=
  if level then { applyReset s with rst := true } else { s with rst := false }

/-- A poll of STATUS by WAIT while the engine is idle. Out of reset it reads BUSY = 0 and ends the WAIT. While reset is
applied it reads any value (70_reset_and_hazards.md R242, U11): the spec leaves open whether WAIT ends then, and here it ends
at the first poll whose bit 0 is 0 and stays pending until then (30_encoding.md R97, log 23). -/
def hostPoll (rest : List Event) (s : State) : State :=
  if s.rst && (Config.freeWord s.free 0).getLsbD 0 then { s with free := s.free + 1 }
  else hostRead 4 (offsetOf .status) { s with agenda := rest }

/-- The next input is taken. WAIT stays pending, and the engine has its turn, while BUSY = 1 (30_encoding.md R97). -/
def perform (e : Event) (rest : List Event) (s : State) : Host.Outcome State Fault Refusal :=
  match e with
  | .rd width off => .next (hostRead width off { s with agenda := rest })
  | .wr width off v => .next (hostWrite width off v { s with agenda := rest })
  | .wait =>
    if s.status.busy then engineAct s else .next (hostPoll rest s)
  | .memRead a => .next (hostMemRead a { s with agenda := rest })
  | .memWrite a v => .next (hostMemWrite a v { s with agenda := rest })
  | .setRst level => .next (driveRst level { s with agenda := rest })
  | .setBusMap m => .next { s with busMap := m, agenda := rest }
  | .engine => engineStep { s with agenda := rest }

/-! ### Host programs (30_encoding.md R96, R97) -/

/-- `WR REG, v`. -/
def hostWR (r : Reg) (v : Word) : Event := .wr 4 (offsetOf r) v

/-- `RD REG`. -/
def hostRD (r : Reg) : Event := .rd 4 (offsetOf r)

/-- `WR64 SRC, v`. -/
def hostWR64Src (v : Word64) : List Event := [hostWR .srcLo (lo32 v), hostWR .srcHi (hi32 v)]

/-- `WR64 LEN, v`. -/
def hostWR64Len (v : Word64) : List Event := [hostWR .lenLo (lo32 v), hostWR .lenHi (hi32 v)]

/-- `WR64 DST, v`. -/
def hostWR64Dst (v : Word64) : List Event := [hostWR .dstLo (lo32 v), hostWR .dstHi (hi32 v)]

/-- `RD64` of a pair, given its two halves. -/
def hostRD64 (lo hi : Reg) : List Event := [hostRD lo, hostRD hi]

/-- `RUN mnemonic`: the command word, then WAIT. -/
def hostRUN (i : Instr) : List Event := [hostWR .cmd (encode i), .wait]

/-- `WRBLK b0 .. b63`. -/
def hostWRBLK (b : Block) : List Event :=
  (List.finRange 16).map fun j => hostWR (.blkw j) (readBlkw b j)

/-- `CLEAR`: DONE, ERR, ERRCODE and OVR. -/
def hostCLEAR : Event := hostWR .status 0x0000000E

/-- The boot sequence of 70_reset_and_hazards.md R244. -/
def hostBoot : List Event := [hostRD .id, hostRD .caps, hostWR .ctrl 0x00000000, hostCLEAR]

end Sys2Proof.Machine
end

