-- ==== Sys2Proof/Machine/Step.lean ====
section
/-! DEFINITION. One step of the machine, and where an instruction is fetched. -/

namespace Sys2Proof.Machine

/-- One step: the host's next input if one is pending, else the engine's turn. An engine that is idle with no input pending
waits (10_state.md R47, phase IDLE; log 15). -/
def step (s : State) : Host.Outcome State Fault Refusal :=
  match s.agenda with
  | [] => engineAct s
  | e :: rest => perform e rest s

/-- The state in which the word of an instruction has just been accepted, with no input pending: the very next step decodes
and runs it. There is no instruction memory (20_memory.md R79); this stands for the host's write to CMD (43_control.md
R193, log 2). -/
def State.withFetchWord (s : State) (nbits w : Nat) : State :=
  { accept (BitVec.ofNat 32 (w % 2 ^ nbits)) s with agenda := [] }

end Sys2Proof.Machine
end

