-- ==== Sys2Proof/Safety.lean ====
section
/-! DEFINITION. What holds of every state a run can reach, in the terms the statements use. -/

namespace Sys2Proof.Machine

/-- System memory is in its canonical form (log 3). -/
def MemoryOk (s : State) : Prop := Memory.wf s.mem

/-- STATUS is consistent: BUSY is 1 exactly while the sequencer is out of IDLE (10_state.md R47); while it is, DONE, ERR,
ERRCODE and OUTLEN are 0 (43_control.md R193); ERRCODE is 0 when ERR = 0 (10_state.md R26) and one of 1..4 when ERR = 1
(60_exceptions.md R215). -/
def StatusOk (s : State) : Prop :=
  (s.status.busy = true ↔ s.phase ≠ .idle) ∧
  (s.status.busy = true → s.status.done = false ∧ s.status.err = false ∧ s.outlen = 0) ∧
  (s.status.err = false → s.status.errcode = 0) ∧
  (s.status.err = true → 1 ≤ s.status.errcode.toNat ∧ s.status.errcode.toNat ≤ 4)

/-- While a command runs, the latches and the registers agree (10_state.md R44), and only then is an address raced. -/
def LatchOk (s : State) : Prop :=
  (s.status.busy = true → s.eng.src = s.src ∧ s.eng.len = s.len ∧ s.eng.dst = s.dst) ∧
  (s.status.busy = false → s.raced = [])

/-- Reset is not applied while a command runs (70_reset_and_hazards.md R240). -/
def ResetOk (s : State) : Prop := s.rst = true → s.status.busy = false

/-- The accepted word is a command that passes its checks and of which `c` holds. -/
def Running (s : State) (c : Instr → Prop) : Prop :=
  ∃ i, decode s.eng.cmdword = .ok i ∧ checkOperands i s = none ∧ c i

/-- A HASH in progress has its padded length and has written no digest byte (10_state.md R47, R48). -/
def HashInProgress (s : State) (i : Instr) : Prop :=
  hashOf i ≠ none → s.eng.p = paddedLen i s ∧ s.eng.k = 0 ∧ s.eng.q % 64 = 0

/-- The step indices the phase STEP admits (41_md5.md R151, 42_sha1.md R176). -/
def stepBound : Alg → Nat
  | .md5 => 64
  | .sha1 => 80

/-- A command that reaches COMPLETE with success or a bus error has passed its checks (60_exceptions.md R217, R219). -/
def ResultOk (s : State) : Prop :=
  ∀ i, decode s.eng.cmdword = .ok i → s.eng.result ∈ [some .size, some .cmd, some .addr] ∨ checkOperands i s = none

/-- The sequencer's position is one the phase programs of 10_state.md R48 reach. -/
def SequencerOk (s : State) : Prop :=
  match s.phase with
  | .idle => True
  | .check => True
  | .complete => ResultOk s
  | .initH => Running s fun i => afterInit i ≠ none ∧ (hashOf i ≠ none → s.eng.q = 0) ∧ HashInProgress s i
  | .fill => Running s fun i => hashOf i ≠ none ∧ s.eng.p = paddedLen i s ∧ s.eng.k = 0 ∧ s.eng.q < s.eng.p
  | .loadw => Running s fun i => blockAlg i ≠ none ∧ HashInProgress s i
  | .step => Running s fun i => (∃ a, blockAlg i = some a ∧ s.eng.t < stepBound a) ∧ HashInProgress s i
  | .add => Running s fun i => blockAlg i ≠ none ∧ HashInProgress s i
  | .out => Running s fun i => hashOf i ≠ none ∧ s.eng.k < outBytes i s
  | .copy => Running s fun i => padGeom i ≠ none ∧ s.eng.p = paddedLen i s ∧ s.eng.q ≤ msgLen s
  | .padw => Running s fun i => padGeom i ≠ none ∧ s.eng.p = paddedLen i s ∧ msgLen s ≤ s.eng.q

/-- The invariant: it holds right after reset, and every step from a state that has it answers a state that has it. -/
structure Inv (s : State) : Prop where
  memory : MemoryOk s
  status : StatusOk s
  latch : LatchOk s
  reset : ResetOk s
  sequencer : SequencerOk s

/-- A command has been accepted and the engine has taken no step of it yet (43_control.md R193). -/
def Accepted (s : State) (i : Instr) : Prop := s.phase = .check ∧ decode s.eng.cmdword = .ok i

/-- None of the accesses the command plans errs (20_memory.md R64, R65). -/
def PortQuiet (i : Instr) (s : State) : Prop := ∀ x ∈ portPlan i s, errs s.busMap x = false

/-- Every byte of the source range answers a read without a bus error (20_memory.md R64). -/
def SourceAnswers (s : State) : Prop := ∀ q, q < msgLen s → errs s.busMap (.read (srcBase s + q)) = false

/-- The first `n` bytes of the destination answer a write without a bus error (20_memory.md R65). -/
def DestAnswers (n : Nat) (s : State) : Prop := ∀ k, k < n → errs s.busMap (.write (dstBase s + k)) = false

/-- The message as the memory holds it (20_memory.md R62). -/
def storedMessage (s : State) : List Byte :=
  (List.range (msgLen s)).map fun q => readByte s.mem (srcBase s + q)

/-- What HASH and PAD need of the state to succeed with `n` output bytes: the ranges fit (60_exceptions.md R218), no access
errs (R219), no other agent raced the command (70_reset_and_hazards.md R245, R246). -/
def OutputPossible (n : Nat) (s : State) : Prop :=
  srcBase s + msgLen s ≤ 2 ^ 64 ∧ dstBase s + n ≤ 2 ^ 64 ∧ SourceAnswers s ∧ DestAnswers n s ∧ s.raced = [] ∧ MemoryOk s

/-- The state no command writes: CTRL, SRC, LEN, DST, STATUS.OVR (10_state.md R51, 43_control.md R196), and the other
agents'. -/
def CommandFrame (s t : State) : Prop :=
  t.ctrl = s.ctrl ∧ t.src = s.src ∧ t.len = s.len ∧ t.dst = s.dst ∧ t.status.ovr = s.status.ovr ∧
  t.rst = s.rst ∧ t.busMap = s.busMap ∧ t.agenda = s.agenda ∧ t.replies = s.replies

/-- The chaining registers, BLK and BLKCNT are as before. -/
def HashRegsFrame (s t : State) : Prop :=
  t.h0 = s.h0 ∧ t.h1 = s.h1 ∧ t.h2 = s.h2 ∧ t.h3 = s.h3 ∧ t.h4 = s.h4 ∧ t.blk = s.blk ∧ t.blkcnt = s.blkcnt

/-- Every byte of system memory reads as before. -/
def MemoryFrame (s t : State) : Prop := ∀ a, readByte t.mem a = readByte s.mem a

/-- Every byte of system memory outside the `n` bytes from `base` reads as before. -/
def MemoryFrameOutside (base n : Nat) (s t : State) : Prop :=
  ∀ a, ¬(base ≤ a ∧ a < base + n) → readByte t.mem a = readByte s.mem a

/-- Every byte of system memory reads as before, but for destination bytes that another agent wrote while the command ran
(70_reset_and_hazards.md R246): all of memory where there was no such write. -/
def MemoryFrameButRaces (i : Instr) (s t : State) : Prop :=
  ∀ a, ¬(a ∈ s.raced ∧ dstBase s ≤ a ∧ a < dstBase s + outBytes i s) → readByte t.mem a = readByte s.mem a

/-- The command ended, with the engine idle (43_control.md R196). -/
def Ended (t : State) : Prop := t.phase = .idle ∧ t.status.busy = false ∧ t.status.done = true

/-- STATUS of a success: BUSY 0, DONE 1, the rest as acceptance left it (43_control.md R196). -/
def Succeeded (s t : State) : Prop := t.phase = .idle ∧ t.status = { s.status with busy := false, done := true }

/-- STATUS of a failure with an error code (43_control.md R196). -/
def Failed (code : BitVec 4) (s t : State) : Prop :=
  t.phase = .idle ∧ t.status = { s.status with busy := false, done := true, err := true, errcode := code }

/-- The number a big-endian byte sequence holds (00_scope.md R9). -/
def beValue (bs : List Byte) : Nat := bs.foldl (fun v b => 256 * v + b.toNat) 0

/-- The number a little-endian byte sequence holds (00_scope.md R9). -/
def leValue (bs : List Byte) : Nat := bs.foldr (fun b v => b.toNat + 256 * v) 0

/-- The block holds its reset values (10_state.md R50): the registers as they read, the phase, and the irq wire. -/
def AtReset (t : State) : Prop :=
  readReg .id t = 0x4649564D ∧ readReg .version t = 7 ∧ readReg .caps t = 0x1F ∧ readReg .cmd t = 0 ∧
  statusWord t.status = 0 ∧ ctrlWord t.ctrl = 0 ∧ t.src = 0 ∧ t.len = 0 ∧ t.dst = 0 ∧
  t.outlen = 0 ∧ t.blkcnt = 0 ∧ t.erraddr = 0 ∧
  t.h0 = 0 ∧ t.h1 = 0 ∧ t.h2 = 0 ∧ t.h3 = 0 ∧ t.h4 = 0 ∧ (∀ j : Fin 64, t.blk[j.val] = 0) ∧
  t.phase = .idle ∧ irq t = false

/-- `n` steps of the machine. -/
def steps (n : Nat) (s : State) : Host.Outcome State Fault Refusal :=
  match n with
  | 0 => .next s
  | n + 1 =>
    match step s with
    | .next t => steps n t
    | .fault f => .fault f
    | .refused r => .refused r

end Sys2Proof.Machine
end

