-- ==== Sys2Proof/Certificates/Slice0/Obligations.lean ====
section
/-! DEFINITION. The statements for the provers. Each docstring names the rule of spec/ it formalises. -/

open Sys2Proof Sys2Proof.Machine

/-! ## Encoding -/

/-- 30_encoding.md R89: each word of the table decodes to its command. -/
def Obligations.TableWordsDecode : Prop :=
  decode 0x00000000 = .ok .nop ∧ decode 0x00000001 = .ok .initMd5 ∧ decode 0x00000011 = .ok .initSha1 ∧
  decode 0x00000002 = .ok .compressMd5 ∧ decode 0x00000012 = .ok .compressSha1 ∧
  decode 0x00000003 = .ok .hashMd5 ∧ decode 0x00000013 = .ok .hashSha1 ∧
  decode 0x00000004 = .ok .padP512 ∧ decode 0x00000014 = .ok .padP1024 ∧ decode 0x00000024 = .ok .padP512le

/-- 30_encoding.md R90, with the encoder: a word decodes to a command exactly when it is that command's word. -/
def Obligations.DecodeInvertsEncode : Prop := ∀ (w : Word) (i : Instr), decode w = .ok i ↔ w = encode i

/-- 30_encoding.md R91: exactly which words are illegal, on the number the word is. -/
def Obligations.IllegalWordsByField : Prop :=
  ∀ w : Word, (∃ e, decode w = .error e) ↔
    (5 ≤ w.toNat % 16 ∨
     ((w.toNat % 16 = 1 ∨ w.toNat % 16 = 2 ∨ w.toNat % 16 = 3) ∧ 2 ≤ w.toNat / 16 % 4) ∨
     (w.toNat % 16 = 4 ∧ w.toNat / 16 % 4 = 3) ∨
     (w.toNat % 16 = 0 ∧ w.toNat / 16 % 4 ≠ 0) ∨
     w.toNat / 64 ≠ 0)

/-! ## Steps and the lifecycle of a command -/

/-- The step of a machine whose engine has just accepted the word of `i` is `exec i`, with no input pending and while the
host waits (43_control.md R194, R195; merged as 70_reset_and_hazards.md R256 allows, log 1). -/
def Obligations.StepRunsTheDecodedInstruction : Prop :=
  ∀ (s : State) (i : Instr), Accepted s i →
    (s.agenda = [] → step s = exec i s) ∧
    (∀ rest, s.agenda = .wait :: rest → s.status.busy = true → step s = exec i s)

/-- 43_control.md R193: what the host's write to CMD does when BUSY = 0. -/
def Obligations.CmdWriteIsAccepted : Prop :=
  ∀ (s : State) (w : Word) (rest : List Event),
    s.agenda = hostWR .cmd w :: rest → s.rst = false → s.status.busy = false →
    ∃ t, step s = .next t ∧
      t.eng.cmdword = w ∧ engineOp t.eng = w.extractLsb' 0 4 ∧ engineSel t.eng = w.extractLsb' 4 2 ∧
      t.eng.src = s.src ∧ t.eng.len = s.len ∧ t.eng.dst = s.dst ∧ t.eng.sha1Le = s.ctrl.sha1Le ∧
      t.status = { busy := true, done := false, err := false, ovr := s.status.ovr, errcode := 0 } ∧
      t.outlen = 0 ∧ t.phase = .check ∧
      t.ctrl = s.ctrl ∧ t.src = s.src ∧ t.len = s.len ∧ t.dst = s.dst ∧ t.erraddr = s.erraddr ∧
      HashRegsFrame s t ∧ t.mem = s.mem ∧ t.port = s.port ∧ t.agenda = rest

/-- 70_reset_and_hazards.md R247: a CMD write while BUSY = 1 only sets OVR. -/
def Obligations.CmdWriteWhileBusyIsDropped : Prop :=
  ∀ (s : State) (w : Word) (rest : List Event),
    s.agenda = hostWR .cmd w :: rest → s.rst = false → s.status.busy = true →
    step s = .next { s with
      agenda := rest, replies := .done :: s.replies, status := { s.status with ovr := true } }

/-- 43_control.md R195, R196: whatever the state, every command ends, and leaves CTRL, SRC, LEN, DST, OVR and the other
agents as they were. -/
def Obligations.EveryCommandEnds : Prop :=
  ∀ (i : Instr) (s : State), ∃ t, exec i s = .next t ∧ Ended t ∧ t.raced = [] ∧ CommandFrame s t

/-- 30_encoding.md R91: an illegal command completes at once with ERRCODE = CMD and no other effect. -/
def Obligations.IllegalCommandCompletes : Prop :=
  ∀ (s : State) (e : IllegalWord), s.agenda = [] → s.phase = .check → decode s.eng.cmdword = .error e →
    ∃ t, step s = .next t ∧ Failed 2 s t ∧ t.outlen = s.outlen ∧ t.erraddr = s.erraddr ∧
      HashRegsFrame s t ∧ t.mem = s.mem ∧ t.port = s.port ∧ CommandFrame s t

/-- 10_state.md R32: OUTLEN is 0 at acceptance, the bytes written by a HASH or PAD that succeeds, and stays as acceptance
left it for every other command and every command that fails. -/
def Obligations.OutlenCountsTheOutput : Prop :=
  ∀ (i : Instr) (w : Word) (s t : State), exec i (accept w s) = .next t →
    (accept w s).outlen = 0 ∧
    (t.status.err = true → t.outlen = 0) ∧
    (t.status.err = false →
      (i = .hashMd5 → t.outlen = 16) ∧ (i = .hashSha1 → t.outlen = 20) ∧
      (∀ g, i = .pad g → t.outlen.toNat = padLen g s.len.toNat) ∧
      (hashOf i = none → isPad i = false → t.outlen = 0)) ∧
    (completeIllegal (accept w s)).outlen = 0

/-- 10_state.md R34: ERRADDR changes only when a command fails with ERRCODE = BUS, and then holds the address of the
access that erred, the last one made; otherwise, whatever the step (reset apart), it keeps its value. -/
def Obligations.ErrAddrOnlyByBus : Prop :=
  (∀ (i : Instr) (s t : State), exec i s = .next t → s.status.err = false →
    (t.status.err = true ∧ t.status.errcode = 4 →
      ∃ x, t.port.getLast? = some x ∧ errs s.busMap x = true ∧ t.erraddr = BitVec.ofNat 64 (accessAddr x)) ∧
    (¬(t.status.err = true ∧ t.status.errcode = 4) → t.erraddr = s.erraddr)) ∧
  ∀ s t : State, step s = .next t →
    t.erraddr = s.erraddr ∨ (s.phase ≠ .idle ∧ t.phase = .idle ∧ t.status.err = true ∧ t.status.errcode = 4) ∨
      ∃ rest, s.agenda = .setRst true :: rest

/-- 20_memory.md R61: no command changes a byte outside its destination range; where the ranges of a PAD overlap
(40_padding.md R118), none outside the two ranges. -/
def Obligations.WritesStayInTheDestination : Prop :=
  ∀ (i : Instr) (s t : State), exec i s = .next t →
    (padOverlaps i s = false → MemoryFrameOutside (dstBase s) (outBytes i s) s t) ∧
    (∀ a, ¬(dstBase s ≤ a ∧ a < dstBase s + outBytes i s) → ¬(srcBase s ≤ a ∧ a < srcBase s + msgLen s) →
      readByte t.mem a = readByte s.mem a)

/-- 10_state.md R28, R44, 70_reset_and_hazards.md R248: a change of CTRL after acceptance does not reach the running
command, nor does one between two of its engine steps reach the steps that follow. -/
def Obligations.CtrlDoesNotReachTheRunningCommand : Prop :=
  (∀ (i : Instr) (s t : State) (c : Ctrl), exec i s = .next t →
    exec i { s with ctrl := c } = .next { t with ctrl := c }) ∧
  ∀ (n : Nat) (s t : State) (c : Ctrl), engineSteps n s = .next t →
    engineSteps n { s with ctrl := c } = .next { t with ctrl := c }

/-! ## NOP and INIT -/

/-- 43_control.md R200: NOP completes; it writes STATUS and OUTLEN, nothing else. -/
def Obligations.NopResult : Prop :=
  ∀ s : State, ∃ t, exec .nop s = .next t ∧ Succeeded s t ∧ t.outlen = 0 ∧
    t.erraddr = s.erraddr ∧ HashRegsFrame s t ∧ MemoryFrame s t ∧ t.port = s.port ∧ CommandFrame s t

/-- 41_md5.md R146, R143: INIT.MD5. -/
def Obligations.InitMd5Result : Prop :=
  ∀ s : State, ∃ t, exec .initMd5 s = .next t ∧ Succeeded s t ∧ t.outlen = 0 ∧
    t.h0 = 0x67452301 ∧ t.h1 = 0xEFCDAB89 ∧ t.h2 = 0x98BADCFE ∧ t.h3 = 0x10325476 ∧ t.blkcnt = 0 ∧
    t.h4 = s.h4 ∧ t.blk = s.blk ∧ t.erraddr = s.erraddr ∧ MemoryFrame s t ∧ t.port = s.port ∧ CommandFrame s t

/-- 42_sha1.md R180, R174: INIT.SHA1. -/
def Obligations.InitSha1Result : Prop :=
  ∀ s : State, ∃ t, exec .initSha1 s = .next t ∧ Succeeded s t ∧ t.outlen = 0 ∧
    t.h0 = 0x67452301 ∧ t.h1 = 0xEFCDAB89 ∧ t.h2 = 0x98BADCFE ∧ t.h3 = 0x10325476 ∧ t.h4 = 0xC3D2E1F0 ∧
    t.blkcnt = 0 ∧
    t.blk = s.blk ∧ t.erraddr = s.erraddr ∧ MemoryFrame s t ∧ t.port = s.port ∧ CommandFrame s t

/-! ## COMPRESS -/

/-- 41_md5.md R147, R141, R142: COMPRESS.MD5 adds the working state after 64 steps to the snapshot. -/
def Obligations.CompressMd5Result : Prop :=
  ∀ s : State, ∃ t, exec .compressMd5 s = .next t ∧ Succeeded s t ∧ t.outlen = 0 ∧
    t.h0 = s.h0 + (md5Steps (md5Words s.blk) 64 (md5H4 s)).a ∧
    t.h1 = s.h1 + (md5Steps (md5Words s.blk) 64 (md5H4 s)).b ∧
    t.h2 = s.h2 + (md5Steps (md5Words s.blk) 64 (md5H4 s)).c ∧
    t.h3 = s.h3 + (md5Steps (md5Words s.blk) 64 (md5H4 s)).d ∧
    t.blkcnt = s.blkcnt + 1 ∧
    t.h4 = s.h4 ∧ t.blk = s.blk ∧ t.erraddr = s.erraddr ∧ MemoryFrame s t ∧ t.port = s.port ∧ CommandFrame s t

/-- 42_sha1.md R181, R172, R173: COMPRESS.SHA1 adds the working state after 80 steps to the snapshot. -/
def Obligations.CompressSha1Result : Prop :=
  ∀ s : State, ∃ t, exec .compressSha1 s = .next t ∧ Succeeded s t ∧ t.outlen = 0 ∧
    t.h0 = s.h0 + (sha1Steps (sha1Schedule s.blk) 80 (sha1H5 s)).a ∧
    t.h1 = s.h1 + (sha1Steps (sha1Schedule s.blk) 80 (sha1H5 s)).b ∧
    t.h2 = s.h2 + (sha1Steps (sha1Schedule s.blk) 80 (sha1H5 s)).c ∧
    t.h3 = s.h3 + (sha1Steps (sha1Schedule s.blk) 80 (sha1H5 s)).d ∧
    t.h4 = s.h4 + (sha1Steps (sha1Schedule s.blk) 80 (sha1H5 s)).e ∧
    t.blkcnt = s.blkcnt + 1 ∧
    t.blk = s.blk ∧ t.erraddr = s.erraddr ∧ MemoryFrame s t ∧ t.port = s.port ∧ CommandFrame s t

/-- 41_md5.md R152: the MD5 commands neither read nor write H4, and none reads SHA1_LE. -/
def Obligations.Md5IgnoresH4AndSha1Le : Prop :=
  ∀ (i : Instr) (s t : State), algOf i = some .md5 → exec i s = .next t →
    t.h4 = s.h4 ∧
    (∀ v, exec i { s with h4 := v } = .next { t with h4 := v }) ∧
    (∀ c, exec i { s with ctrl := c } = .next { t with ctrl := c }) ∧
    (∀ b, exec i { s with eng := { s.eng with sha1Le := b } } = .next t)

/-! ## HASH -/

/-- 41_md5.md R148: a HASH.MD5 whose message fits. -/
def Obligations.HashMd5Result : Prop :=
  ∀ s : State, msgLen s < 2 ^ 61 → OutputPossible 16 s →
    ∃ t d, exec .hashMd5 s = .next t ∧ md5 (storedMessage s) = some d ∧
      (∀ k, k < 16 → d[k]? = some (readByte t.mem (dstBase s + k))) ∧ d.length = 16 ∧
      Succeeded s t ∧ t.outlen = 16 ∧
      md5H4 t = md5Chain (padBytes .p512le (storedMessage s)) ((msgLen s + 72) / 64) ∧
      t.blkcnt = BitVec.ofNat 64 ((msgLen s + 72) / 64) ∧
      t.blk = streamBlock (padBytes .p512le (storedMessage s)) ((msgLen s + 72) / 64 - 1) ∧
      t.h4 = s.h4 ∧ t.erraddr = s.erraddr ∧ MemoryFrameOutside (dstBase s) 16 s t ∧ CommandFrame s t

/-- 42_sha1.md R182: a HASH.SHA1 whose message fits, in the latched byte order. -/
def Obligations.HashSha1Result : Prop :=
  ∀ s : State, msgLen s < 2 ^ 61 → OutputPossible 20 s →
    ∃ t d, exec .hashSha1 s = .next t ∧ sha1 (storedMessage s) s.eng.sha1Le = some d ∧
      (∀ k, k < 20 → d[k]? = some (readByte t.mem (dstBase s + k))) ∧ d.length = 20 ∧
      Succeeded s t ∧ t.outlen = 20 ∧
      sha1H5 t = sha1Chain (padBytes .p512 (storedMessage s)) ((msgLen s + 72) / 64) ∧
      t.blkcnt = BitVec.ofNat 64 ((msgLen s + 72) / 64) ∧
      t.blk = streamBlock (padBytes .p512 (storedMessage s)) ((msgLen s + 72) / 64 - 1) ∧
      t.erraddr = s.erraddr ∧ MemoryFrameOutside (dstBase s) 20 s t ∧ CommandFrame s t

/-- 43_control.md R198: the digest, H and BLKCNT of a HASH depend on the message and, for SHA-1, on SHA1_LE alone, whatever
state came before and wherever source and destination lie. -/
def Obligations.HashIsDeterministic : Prop :=
  ∀ s1 s2 : State, storedMessage s1 = storedMessage s2 → msgLen s1 < 2 ^ 61 →
    (OutputPossible 16 s1 → OutputPossible 16 s2 →
      ∃ t1 t2, exec .hashMd5 s1 = .next t1 ∧ exec .hashMd5 s2 = .next t2 ∧
        md5H4 t1 = md5H4 t2 ∧ t1.blkcnt = t2.blkcnt ∧
        ∀ k, k < 16 → readByte t1.mem (dstBase s1 + k) = readByte t2.mem (dstBase s2 + k)) ∧
    (OutputPossible 20 s1 → OutputPossible 20 s2 → s1.eng.sha1Le = s2.eng.sha1Le →
      ∃ t1 t2, exec .hashSha1 s1 = .next t1 ∧ exec .hashSha1 s2 = .next t2 ∧
        sha1H5 t1 = sha1H5 t2 ∧ t1.blkcnt = t2.blkcnt ∧
        ∀ k, k < 20 → readByte t1.mem (dstBase s1 + k) = readByte t2.mem (dstBase s2 + k))

/-- 43_control.md R205 for MD5: HASH leaves H0..H3 and BLKCNT as INIT and then one COMPRESS for each padded block, the block
written to BLK before it, leave them; and its digest is the serialization of those registers. -/
def Obligations.HashMd5IsInitThenCompress : Prop :=
  ∀ s t : State, msgLen s < 2 ^ 61 → OutputPossible 16 s → exec .hashMd5 s = .next t →
    ∃ f : Nat → State, exec .initMd5 s = .next (f 0) ∧
      (∀ n, n < (msgLen s + 72) / 64 →
        exec .compressMd5 { f n with blk := streamBlock (padBytes .p512le (storedMessage s)) n } = .next (f (n + 1))) ∧
      md5H4 t = md5H4 (f ((msgLen s + 72) / 64)) ∧ t.blkcnt = (f ((msgLen s + 72) / 64)).blkcnt ∧
      ∀ k, k < 16 →
        (md5DigestBytes (md5H4 (f ((msgLen s + 72) / 64))))[k]? = some (readByte t.mem (dstBase s + k))

/-- 43_control.md R205 for SHA-1. -/
def Obligations.HashSha1IsInitThenCompress : Prop :=
  ∀ s t : State, msgLen s < 2 ^ 61 → OutputPossible 20 s → exec .hashSha1 s = .next t →
    ∃ f : Nat → State, exec .initSha1 s = .next (f 0) ∧
      (∀ n, n < (msgLen s + 72) / 64 →
        exec .compressSha1 { f n with blk := streamBlock (padBytes .p512 (storedMessage s)) n } = .next (f (n + 1))) ∧
      sha1H5 t = sha1H5 (f ((msgLen s + 72) / 64)) ∧ t.blkcnt = (f ((msgLen s + 72) / 64)).blkcnt ∧
      ∀ k, k < 20 →
        (sha1DigestBytes (sha1H5 (f ((msgLen s + 72) / 64))) s.eng.sha1Le)[k]? = some (readByte t.mem (dstBase s + k))

/-! ## PAD -/

/-- 40_padding.md R113, R115, R116, R117, for the three geometries: the padded buffer at dst, byte by byte, and nothing
else. Source and destination do not overlap (R118). -/
def Obligations.PadResult : Prop :=
  ∀ (g : Geom) (s : State), (g ≠ .p1024 → msgLen s < 2 ^ 61) → padLen g (msgLen s) ≤ 2 ^ 64 - 1 →
    OutputPossible (padLen g (msgLen s)) s →
    (msgLen s = 0 ∨ srcBase s + msgLen s ≤ dstBase s ∨ dstBase s + padLen g (msgLen s) ≤ srcBase s) →
    ∃ t, exec (.pad g) s = .next t ∧ Succeeded s t ∧ t.outlen = BitVec.ofNat 64 (padLen g (msgLen s)) ∧
      (∀ q, q < msgLen s → readByte t.mem (dstBase s + q) = readByte s.mem (srcBase s + q)) ∧
      readByte t.mem (dstBase s + msgLen s) = 0x80 ∧
      (∀ q, msgLen s < q → q < padLen g (msgLen s) - fieldBytes g → readByte t.mem (dstBase s + q) = 0) ∧
      (∀ j, j < fieldBytes g → readByte t.mem (dstBase s + (padLen g (msgLen s) - fieldBytes g + j)) =
        byteOf (8 * msgLen s) (if g = .p512le then j else fieldBytes g - 1 - j)) ∧
      t.erraddr = s.erraddr ∧ HashRegsFrame s t ∧
      MemoryFrameOutside (dstBase s) (padLen g (msgLen s)) s t ∧ CommandFrame s t

/-- 40_padding.md R118: where the ranges of a PAD overlap, OUTLEN, STATUS and every byte outside the two ranges are as for a
command that does not overlap. -/
def Obligations.PadOverlapOutcome : Prop :=
  ∀ (g : Geom) (s : State), (g ≠ .p1024 → msgLen s < 2 ^ 61) → padLen g (msgLen s) ≤ 2 ^ 64 - 1 →
    OutputPossible (padLen g (msgLen s)) s → padOverlaps (.pad g) s = true →
    ∃ t, exec (.pad g) s = .next t ∧ Succeeded s t ∧ t.outlen = BitVec.ofNat 64 (padLen g (msgLen s)) ∧
      t.erraddr = s.erraddr ∧ HashRegsFrame s t ∧ CommandFrame s t ∧
      ∀ a, ¬(dstBase s ≤ a ∧ a < dstBase s + padLen g (msgLen s)) → ¬(srcBase s ≤ a ∧ a < srcBase s + msgLen s) →
        readByte t.mem a = readByte s.mem a

/-- 40_padding.md R113, 10_state.md R51: NOP and the PAD commands leave H0..H4, BLK and BLKCNT alone, whatever their
outcome. -/
def Obligations.PadAndNopLeaveTheHashRegisters : Prop :=
  ∀ (i : Instr) (s t : State), algOf i = none → exec i s = .next t → HashRegsFrame s t

/-! ## Errors -/

/-- 60_exceptions.md R217, R218: the checks of CHECK on the operands, in their order. -/
def Obligations.ChecksInOrder : Prop :=
  ∀ (i : Instr) (s : State), checkOperands i s =
    if i ∈ [Instr.hashMd5, .hashSha1, .padP512, .padP512le] ∧ 2 ^ 61 ≤ msgLen s then some .size
    else if i ∈ [Instr.hashMd5, .hashSha1, .padP512, .padP1024, .padP512le] ∧
        (2 ^ 64 < srcBase s + msgLen s ∨ 2 ^ 64 < dstBase s + outBytes i s ∨
          (i ∈ [Instr.padP512, .padP1024, .padP512le] ∧ 2 ^ 64 - 1 < outBytes i s)) then some .addr
    else none

/-- 60_exceptions.md R215, R217: `L >= 2^61` fails with SIZE and changes nothing but STATUS; what
another agent wrote into its destination range meanwhile is a hazard of its own (70_reset_and_hazards.md R246, log 8). -/
def Obligations.SizeFailure : Prop :=
  ∀ (i : Instr) (s : State), i ∈ [Instr.hashMd5, .hashSha1, .padP512, .padP512le] → 2 ^ 61 ≤ msgLen s →
    ∃ t, exec i s = .next t ∧ Failed 1 s t ∧ t.outlen = s.outlen ∧ t.erraddr = s.erraddr ∧
      HashRegsFrame s t ∧ MemoryFrameButRaces i s t ∧ t.port = s.port ∧ CommandFrame s t

/-- 60_exceptions.md R218, 20_memory.md R73: a range past the top of the address space fails with ADDR before any access,
when SIZE does not come first; what another agent wrote into its destination range meanwhile is a hazard of its own
(70_reset_and_hazards.md R246, log 8). -/
def Obligations.AddrFailure : Prop :=
  ∀ (i : Instr) (s : State), i ∈ [Instr.hashMd5, .hashSha1, .padP512, .padP1024, .padP512le] →
    (i ≠ .padP1024 → msgLen s < 2 ^ 61) →
    (2 ^ 64 < srcBase s + msgLen s ∨ 2 ^ 64 < dstBase s + outBytes i s ∨
      (i ∈ [Instr.padP512, .padP1024, .padP512le] ∧ 2 ^ 64 - 1 < outBytes i s)) →
    ∃ t, exec i s = .next t ∧ Failed 3 s t ∧ t.outlen = s.outlen ∧ t.erraddr = s.erraddr ∧
      HashRegsFrame s t ∧ MemoryFrameButRaces i s t ∧ t.port = s.port ∧ CommandFrame s t

/-- 60_exceptions.md R219, R216: a command that passes its checks and meets a bus error ends with BUS at the first failing
access of its order, makes no later access, records its address, and leaves every byte outside its ranges alone. -/
def Obligations.BusFailure : Prop :=
  ∀ (i : Instr) (s : State) (before after : List Access) (x : Access), checkOperands i s = none →
    portPlan i s = before ++ x :: after → (∀ y ∈ before, errs s.busMap y = false) → errs s.busMap x = true →
    ∃ t, exec i s = .next t ∧ Failed 4 s t ∧ t.erraddr = BitVec.ofNat 64 (accessAddr x) ∧ t.outlen = s.outlen ∧
      t.port = s.port ++ before ++ [x] ∧ CommandFrame s t ∧
      (padOverlaps i s = false → MemoryFrameOutside (dstBase s) (outBytes i s) s t) ∧
      (isPad i = true → HashRegsFrame s t) ∧ (i ≠ .hashSha1 → t.h4 = s.h4)

/-- 20_memory.md R71: the accesses of a successful HASH, and of a successful PAD, in their order. -/
def Obligations.AccessOrder : Prop :=
  ∀ (i : Instr) (s t : State), checkOperands i s = none → PortQuiet i s → exec i s = .next t →
    (hashOf i ≠ none → t.port = s.port ++
      ((List.range (msgLen s)).map (fun q => Access.read (srcBase s + q)) ++
        (List.range (outBytes i s)).map fun k => Access.write (dstBase s + k))) ∧
    (isPad i = true → t.port = s.port ++
      ((List.range (msgLen s)).flatMap (fun q => [Access.read (srcBase s + q), Access.write (dstBase s + q)]) ++
        (List.range (outBytes i s - msgLen s)).map fun j => Access.write (dstBase s + (msgLen s + j)))) ∧
    (hashOf i = none → isPad i = false → t.port = s.port)

/-- 20_memory.md R72: a successful command reads each source byte once and writes each destination byte once. -/
def Obligations.EachByteAccessedOnce : Prop :=
  ∀ (i : Instr) (s t : State), checkOperands i s = none → PortQuiet i s → exec i s = .next t →
    ∃ new, t.port = s.port ++ new ∧
      (geomOf i ≠ none → ∀ a, new.count (.read a) = if srcBase s ≤ a ∧ a < srcBase s + msgLen s then 1 else 0) ∧
      (∀ a, new.count (.write a) = if dstBase s ≤ a ∧ a < dstBase s + outBytes i s then 1 else 0)

/-- 70_reset_and_hazards.md R245: a race on source bytes changes neither the error outcome nor OUTLEN nor BLKCNT, and the
command still completes, whether it runs whole or its last engine step ends it; and a HASH whose source was raced, before or
after the engine read it, leaves the chaining state of the message with any value at the raced bytes (U9, log 10). -/
def Obligations.RaceKeepsTheOutcome : Prop :=
  (∀ (i : Instr) (s t : State) (r : List Nat), exec i s = .next t →
    ∃ t', exec i { s with raced := r } = .next t' ∧ t'.status = t.status ∧ t'.outlen = t.outlen ∧
      t'.blkcnt = t.blkcnt ∧ t'.erraddr = t.erraddr ∧ t'.port = t.port) ∧
  (∀ (s t : State) (r : List Nat), s.phase = .complete → engineStep s = .next t →
    ∃ t', engineStep { s with raced := r } = .next t' ∧ t'.status = t.status ∧ t'.outlen = t.outlen ∧
      t'.blkcnt = t.blkcnt ∧ t'.erraddr = t.erraddr ∧ t'.port = t.port) ∧
  ∀ s t : State, s.phase = .complete → s.eng.result = none → engineStep s = .next t →
    (∃ q, q < msgLen s ∧ srcBase s + q ∈ s.raced) →
    (decode s.eng.cmdword = .ok .hashMd5 →
      md5H4 t = md5Chain (padBytes .p512le (racedMessage s)) ((msgLen s + 72) / 64)) ∧
    (decode s.eng.cmdword = .ok .hashSha1 →
      sha1H5 t = sha1Chain (padBytes .p512 (racedMessage s)) ((msgLen s + 72) / 64))

/-! ## The padding function -/

/-- 40_padding.md R107: P is the least multiple of B that is at least L + 1 + F, with its closed forms, and where the
document's own formula falls short of it. -/
def Obligations.PaddedLengthIsLeastMultiple : Prop :=
  ∀ (g : Geom) (l : Nat), padLen g l = l + 1 + zeroFill g l + fieldBytes g ∧ padLen g l % blockBytes g = 0 ∧ l + 1 + fieldBytes g ≤ padLen g l ∧
    (∀ p, p % blockBytes g = 0 → l + 1 + fieldBytes g ≤ p → padLen g l ≤ p) ∧
    (blockBytes g = 64 → padLen g l = (l + 9 + 63) / 64 * 64) ∧
    (blockBytes g = 128 → padLen g l = (l + 17 + 127) / 128 * 128 ∧
      ((l + 9 + 127) / 128 * 128 < padLen g l ↔ 112 ≤ l % 128 ∧ l % 128 ≤ 119))

/-- 40_padding.md R108: the invariants of a padded buffer. -/
def Obligations.PaddedBufferInvariants : Prop :=
  ∀ (g : Geom) (m pd : List Byte), pad g m = some pd →
    pd.length = padLen g m.length ∧ pd.length % blockBytes g = 0 ∧
    pd.take m.length = m ∧ pd[m.length]? = some 0x80 ∧
    (∀ q, m.length < q → q < pd.length - fieldBytes g → pd[q]? = some 0) ∧
    (if g = .p512le then leValue (pd.drop (pd.length - fieldBytes g)) = 8 * m.length
     else beValue (pd.drop (pd.length - fieldBytes g)) = 8 * m.length)

/-- 40_padding.md R110: exactly when the padding fails SIZE, which the 64-bit LEN never makes a PAD.P1024 do. -/
def Obligations.SizeOverflowThreshold : Prop :=
  (∀ (g : Geom) (m : List Byte),
    (pad g m = none ↔ 2 ^ (8 * fieldBytes g) - 1 < 8 * m.length) ∧
    (pad g m = none ↔ if g = .p1024 then 2 ^ 125 ≤ m.length else 2 ^ 61 ≤ m.length)) ∧
  ∀ s : State, checkOperands .padP1024 s ≠ some .size

/-- 40_padding.md R111: the bytes the engine generates on the fly are those of the padded buffer. -/
def Obligations.StreamIsThePaddedBuffer : Prop :=
  ∀ (g : Geom) (m : List Byte) (q : Nat), m.length ≤ q → q < padLen g m.length →
    (padBytes g m)[q]? = some (padTail g m.length q)

/-- 40_padding.md R109 (for HASH, 70_reset_and_hazards.md R257): how many blocks a message of L bytes takes. -/
def Obligations.BlockCount : Prop :=
  ∀ l : Nat,
    (∀ g, padLen g l / blockBytes g =
      if l % blockBytes g ≤ blockBytes g - fieldBytes g - 1 then l / blockBytes g + 1 else l / blockBytes g + 2) ∧
    (∀ g, blockBytes g = 64 → padLen g l / 64 = if l % 64 ≤ 55 then l / 64 + 1 else l / 64 + 2) ∧
    padLen .p1024 l / 128 = (if l % 128 ≤ 111 then l / 128 + 1 else l / 128 + 2) ∧
    (∀ g, l % blockBytes g = 0 → padLen g l = l + blockBytes g)

/-! ## The compression functions -/

/-- 41_md5.md R126 to R129 and 42_sha1.md R163 to R165 bit by bit; and what a step index selects: the MD5 function, message
word and shift (41_md5.md R130, R132, R134), the SHA-1 function and constant (42_sha1.md R163). -/
def Obligations.RoundFunctionsBitByBit : Prop :=
  (∀ (b c d : Word) (j : Nat), j < 32 →
    (md5F b c d).getLsbD j = (if b.getLsbD j then c.getLsbD j else d.getLsbD j) ∧
    (md5G b c d).getLsbD j = (if d.getLsbD j then b.getLsbD j else c.getLsbD j) ∧
    (md5H b c d).getLsbD j = (b.getLsbD j ^^ (c.getLsbD j ^^ d.getLsbD j)) ∧
    (md5I b c d).getLsbD j = (c.getLsbD j ^^ (b.getLsbD j || !d.getLsbD j)) ∧
    (sha1Choose b c d).getLsbD j = (if b.getLsbD j then c.getLsbD j else d.getLsbD j) ∧
    (sha1Parity b c d).getLsbD j = (b.getLsbD j ^^ (c.getLsbD j ^^ d.getLsbD j)) ∧
    (sha1Majority b c d).getLsbD j =
      decide (2 ≤ (b.getLsbD j).toNat + (c.getLsbD j).toNat + (d.getLsbD j).toNat)) ∧
  (∀ k, k < 16 →
    (md5Fn k = md5F ∧ md5Idx k = k ∧ md5Shift k = [7, 12, 17, 22].getD (k % 4) 0) ∧
    (md5Fn (16 + k) = md5G ∧ md5Idx (16 + k) = (1 + 5 * k) % 16 ∧ md5Shift (16 + k) = [5, 9, 14, 20].getD (k % 4) 0) ∧
    (md5Fn (32 + k) = md5H ∧ md5Idx (32 + k) = (5 + 3 * k) % 16 ∧ md5Shift (32 + k) = [4, 11, 16, 23].getD (k % 4) 0) ∧
    (md5Fn (48 + k) = md5I ∧ md5Idx (48 + k) = (7 * k) % 16 ∧ md5Shift (48 + k) = [6, 10, 15, 21].getD (k % 4) 0)) ∧
  ∀ k, k < 20 →
    (sha1BandFn k = sha1Choose ∧ sha1BandK k = 0x5A827999) ∧
    (sha1BandFn (20 + k) = sha1Parity ∧ sha1BandK (20 + k) = 0x6ED9EBA1) ∧
    (sha1BandFn (40 + k) = sha1Majority ∧ sha1BandK (40 + k) = 0x8F1BBCDC) ∧
    (sha1BandFn (60 + k) = sha1Parity ∧ sha1BandK (60 + k) = 0xCA62C1D6)

/-- 42_sha1.md R160, R161: the schedule's first 16 words and its recurrence. -/
def Obligations.ScheduleRecurrence : Prop :=
  ∀ blk : Block,
    (∀ j : Fin 16, scheduleWord (sha1Schedule blk) j.val =
      be32 blk[4 * j.val] blk[4 * j.val + 1] blk[4 * j.val + 2] blk[4 * j.val + 3]) ∧
    (∀ x, 16 ≤ x → x < 80 → scheduleWord (sha1Schedule blk) x =
      rol32 (scheduleWord (sha1Schedule blk) (x - 3) ^^^ scheduleWord (sha1Schedule blk) (x - 8) ^^^
        scheduleWord (sha1Schedule blk) (x - 14) ^^^ scheduleWord (sha1Schedule blk) (x - 16)) 1)

/-- 41_md5.md R134, R139 and 42_sha1.md R166, R171: the working words shift through fixed registers. For MD5, a, c and d are
b as it was three, one and two steps before; for SHA-1, every word but a holds an earlier a, turned by 30 from the third
place on. -/
def Obligations.WorkingWordsShiftThrough : Prop :=
  (∀ (x : Vector Word 16) (n : Nat) (w : Md5State),
    (md5Steps x (n + 3) w).c = (md5Steps x (n + 2) w).b ∧ (md5Steps x (n + 3) w).d = (md5Steps x (n + 1) w).b ∧
    (md5Steps x (n + 3) w).a = (md5Steps x n w).b) ∧
  ∀ (w : Vector Word 80) (n : Nat) (v : Sha1State),
    (sha1Steps w (n + 4) v).b = (sha1Steps w (n + 3) v).a ∧
    (sha1Steps w (n + 4) v).c = rol32 (sha1Steps w (n + 2) v).a 30 ∧
    (sha1Steps w (n + 4) v).d = rol32 (sha1Steps w (n + 1) v).a 30 ∧
    (sha1Steps w (n + 4) v).e = rol32 (sha1Steps w n v).a 30

/-! ## The register window -/

/-- 70_reset_and_hazards.md R251, 43_control.md R201, R202: while idle, a register the host may write reads back what was
written, and no other register changes; a step that takes a host write, while idle and out of reset, makes that write; and a
step that takes a host read answers the register's value, while idle or for a register that R249 does not leave open. -/
def Obligations.RegisterReadsBackItsWrite : Prop :=
  (∀ (r : Reg) (v : Word) (s : State),
    (r ∈ [Reg.srcLo, .srcHi, .lenLo, .lenHi, .dstLo, .dstHi, .h0, .h1, .h2, .h3, .h4] ∨ ∃ j, r = .blkw j) →
    s.status.busy = false →
    readReg r (writeReg r v s) = v ∧ (∀ r', r' ≠ r → readReg r' (writeReg r v s) = readReg r' s) ∧
    (writeReg r v s).mem = s.mem ∧ (writeReg r v s).phase = s.phase ∧ (writeReg r v s).status = s.status) ∧
  (∀ (r : Reg) (v : Word) (s : State) (rest : List Event),
    s.agenda = hostWR r v :: rest → s.rst = false → s.status.busy = false →
    step s = .next { writeReg r v { s with agenda := rest } with replies := .done :: s.replies }) ∧
  ∀ (r : Reg) (s : State) (rest : List Event), s.agenda = hostRD r :: rest → s.rst = false →
    (s.status.busy = false ∨ r ∈ [Reg.status, .ctrl, .srcLo, .srcHi, .lenLo, .lenHi, .dstLo, .dstHi]) →
    step s = .next { s with agenda := rest, replies := .word (readReg r s) :: s.replies }

/-- 70_reset_and_hazards.md R248: the idle-only registers drop a write while BUSY = 1, and OVR is not set. -/
def Obligations.IdleOnlyWritesAreDropped : Prop :=
  ∀ (r : Reg) (v : Word) (s : State) (rest : List Event),
    (r ∈ [Reg.srcLo, .srcHi, .lenLo, .lenHi, .dstLo, .dstHi, .h0, .h1, .h2, .h3, .h4] ∨ ∃ j, r = .blkw j) →
    s.agenda = hostWR r v :: rest → s.status.busy = true →
    step s = .next { s with agenda := rest, replies := .done :: s.replies }

/-- 10_state.md R27: what a write to STATUS clears, busy or not. -/
def Obligations.StatusWriteClears : Prop :=
  ∀ (v : Word) (s : State) (rest : List Event), s.agenda = hostWR .status v :: rest → s.rst = false →
    ∃ t, step s = .next t ∧
      t.status.busy = s.status.busy ∧
      t.status.done = (if v.getLsbD 1 then false else s.status.done) ∧
      t.status.err = (if v.getLsbD 2 then false else s.status.err) ∧
      t.status.errcode = (if v.getLsbD 2 then 0 else s.status.errcode) ∧
      t.status.ovr = (if v.getLsbD 3 then false else s.status.ovr) ∧
      { t with status := s.status } = { s with agenda := rest, replies := .done :: s.replies }

/-- 10_state.md R26, R27, 70_reset_and_hazards.md R247, 60_exceptions.md R225: over every step, OVR rises only by a CMD
write while BUSY = 1 and falls only by a STATUS write with bit 3 set or by reset. -/
def Obligations.OvrChangesOnlyByTheHost : Prop :=
  ∀ s t : State, step s = .next t →
    (s.status.ovr = true → t.status.ovr = false →
      (∃ v rest, s.agenda = hostWR .status v :: rest ∧ v.getLsbD 3 = true) ∨ ∃ rest, s.agenda = .setRst true :: rest) ∧
    (s.status.ovr = false → t.status.ovr = true →
      s.status.busy = true ∧ ∃ w rest, s.agenda = hostWR .cmd w :: rest)

/-- 10_state.md R28: a CTRL write is honoured busy or not, takes bits 1:0, and CTRL then reads them with zeros above. -/
def Obligations.CtrlWriteTakesTwoBits : Prop :=
  ∀ (v : Word) (s : State) (rest : List Event), s.agenda = hostWR .ctrl v :: rest → s.rst = false →
    ∃ t, step s = .next t ∧ t.ctrl.sha1Le = v.getLsbD 0 ∧ t.ctrl.ie = v.getLsbD 1 ∧
      readReg .ctrl t = v &&& 3 ∧ { t with ctrl := s.ctrl } = { s with agenda := rest, replies := .done :: s.replies }

/-- 10_state.md R22, R23 and R24's sizes: the constant registers, in every state out of reset, busy or not. -/
def Obligations.ConstantRegisters : Prop :=
  ∀ (s : State) (rest : List Event) (r : Reg) (v : Word),
    (r, v) ∈ [(Reg.id, 0x4649564D#32), (.version, 7), (.caps, 0x1F),
      (.md5BlockBits, 512), (.md5DigestBits, 128), (.md5WordBits, 32), (.md5MaxBitsLo, 0), (.md5MaxBitsHi, 0),
      (.sha1BlockBits, 512), (.sha1DigestBits, 160), (.sha1WordBits, 32), (.cmd, 0)] →
    s.agenda = hostRD r :: rest → s.rst = false →
    step s = .next { s with agenda := rest, replies := .word v :: s.replies }

/-- 10_state.md R20: an offset that no register has reads 0 and ignores writes. -/
def Obligations.UnlistedOffsetsAreRazWi : Prop :=
  ∀ (off : BitVec 12) (v : Word) (s : State), off.toNat % 4 = 0 → (∀ r, offsetOf r ≠ off) → s.rst = false →
    hostRead 4 off s = { s with replies := .word 0 :: s.replies } ∧
    hostWrite 4 off v s = { s with replies := .done :: s.replies }

/-- 20_memory.md R66: a register access of another width or alignment is answered with a bus error and has no effect; one
of 4 bytes at a multiple of 4 never is. That this holds while reset is held too is the model's choice (log 19). -/
def Obligations.BadRegisterAccess : Prop :=
  ∀ (width : Nat) (off : BitVec 12) (v : Word) (s : State) (rest : List Event) (e : Event),
    e ∈ [Event.rd width off, .wr width off v] → s.agenda = e :: rest →
    (width ≠ 4 ∨ off.toNat % 4 ≠ 0 →
      step s = .next { s with agenda := rest, replies := .busError :: s.replies }) ∧
    (width = 4 → off.toNat % 4 = 0 → ∃ t, step s = .next t ∧ t.replies.length = s.replies.length + 1 ∧
      t.replies.head? ≠ some .busError)

/-- 20_memory.md R68: a register read changes no state of the block or of memory: only the host's record and, where the value
read is unspecified, the model's draw counter. -/
def Obligations.ReadsHaveNoSideEffect : Prop :=
  ∀ (width : Nat) (off : BitVec 12) (s : State) (rest : List Event), s.agenda = .rd width off :: rest →
    ∃ t r, step s = .next t ∧ t = { s with agenda := rest, replies := r :: s.replies, free := t.free } ∧
      (readIsFree off s = false → t.free = s.free)

/-- 60_exceptions.md R222: the irq wire is CTRL.IE and STATUS.DONE; so at completion, at acceptance, when the host clears
DONE, clears IE or sets IE, and at reset. -/
def Obligations.IrqFollowsDone : Prop :=
  ∀ (i : Instr) (s t : State) (w v : Word), exec i s = .next t →
    irq s = (s.ctrl.ie && s.status.done) ∧
    irq t = s.ctrl.ie ∧ irq (completeIllegal s) = s.ctrl.ie ∧ irq (accept w s) = false ∧ irq (driveRst true s) = false ∧
    (v.getLsbD 1 = true → irq (writeReg .status v s) = false) ∧
    (v.getLsbD 1 = false → irq (writeReg .ctrl v s) = false) ∧
    (v.getLsbD 1 = true → s.status.done = true → irq (writeReg .ctrl v s) = true)

/-! ## Reset -/

/-- 10_state.md R50, 70_reset_and_hazards.md R240: what power-on reset, and any later assertion of reset, leaves in the
block. -/
def Obligations.ResetClearsTheBlock : Prop :=
  AtReset State.reset ∧
  ∀ (s : State) (rest : List Event), s.agenda = .setRst true :: rest → ∃ t, step s = .next t ∧ AtReset t

/-- 70_reset_and_hazards.md R241, R242: reset keeps system memory; of a legal command it cuts, only the output range is left
open. That a command which is going to fail its checks has an output range too, and an illegal word has none, is the model's
reading (log 8); that a PAD whose ranges overlap leaves its source range open too is the model's choice (log 9). -/
def Obligations.ResetKeepsMemory : Prop :=
  ∀ (s : State) (rest : List Event), s.agenda = .setRst true :: rest →
    ∃ t, step s = .next t ∧
      ((s.status.busy = false ∨ runningCommand s = none) → t.mem = s.mem) ∧
      (∀ i, runningCommand s = some i → padOverlaps i s = false →
        MemoryFrameOutside (dstBase s) (outBytes i s) s t) ∧
      (∀ i a, runningCommand s = some i → ¬(dstBase s ≤ a ∧ a < dstBase s + outBytes i s) →
        ¬(srcBase s ≤ a ∧ a < srcBase s + msgLen s) → readByte t.mem a = readByte s.mem a)

/-! ## Invariants, refinement, progress -/

/-- The invariant holds right after reset (10_state.md R50). -/
def Obligations.InvariantAtReset : Prop := Inv State.reset

/-- Every step from a state of the invariant answers a next state, never a fault and never a refusal, and keeps the
invariant (60_exceptions.md R221: the invariant violation cannot arise). -/
def Obligations.StepKeepsTheInvariant : Prop :=
  ∀ s : State, Inv s → ∃ t, step s = .next t ∧ Inv t

/-- 10_state.md R26: BUSY and DONE are never both 1, and ERRCODE is one of 0..4 (60_exceptions.md R215), after any number of
steps from a state of the invariant. -/
def Obligations.StatusStaysLegal : Prop :=
  ∀ (n : Nat) (s : State), Inv s →
    ∃ t, steps n s = .next t ∧ ¬(t.status.busy = true ∧ t.status.done = true) ∧ t.status.errcode.toNat ≤ 4 ∧
      (t.status.err = false → t.status.errcode = 0)

/-- 70_reset_and_hazards.md R255: from a state of the invariant with no input pending, a running command, at whatever point
of its phases, completes after finitely many steps. -/
def Obligations.RunningCommandCompletes : Prop :=
  ∀ s : State, Inv s → s.agenda = [] → s.status.busy = true →
    ∃ n t, steps n s = .next t ∧ Ended t

/-- 00_scope.md R13, 70_reset_and_hazards.md R256: the engine's micro-steps, phase by phase, end in the very state `exec`
gives, for the commands that access no memory; and those of an illegal word, CHECK and COMPLETE (10_state.md R48), end where
the merged step of an illegal word does. -/
def Obligations.EngineStepsRefineRegisterCommands : Prop :=
  (∀ (s : State) (i : Instr), Accepted s i → geomOf i = none → ∃ n, engineSteps n s = exec i s) ∧
  ∀ (s : State) (e : IllegalWord), s.phase = .check → decode s.eng.cmdword = .error e →
    engineSteps 2 s = .next (completeIllegal s) ∧ runAccepted s = .next (completeIllegal s)

/-- The same for HASH: FILL, LOADW, STEP, ADD and OUT, byte by byte and step by step, with or without a bus error or a
race. -/
def Obligations.EngineStepsRefineHash : Prop :=
  ∀ (s : State) (i : Instr), Accepted s i → hashOf i ≠ none → MemoryOk s → ∃ n, engineSteps n s = exec i s

/-- The same for PAD: COPY and PADW byte by byte, with or without a bus error, a race or an overlap. -/
def Obligations.EngineStepsRefinePad : Prop :=
  ∀ (s : State) (i : Instr), Accepted s i → isPad i = true → MemoryOk s → ∃ n, engineSteps n s = exec i s
end

