-- ==== Sys2Proof/Laws/State.lean ====
section
/-! SUPPORT. One lemma per field per update of State, so that no proof unfolds a record update. -/

namespace Sys2Proof.Machine

/-! ### `setMd5`: H0..H3 written -/

@[simp] theorem setMd5_status (h : Md5State) (s : State) : (setMd5 h s).status = s.status := by cases s; rfl
@[simp] theorem setMd5_ctrl (h : Md5State) (s : State) : (setMd5 h s).ctrl = s.ctrl := by cases s; rfl
@[simp] theorem setMd5_src (h : Md5State) (s : State) : (setMd5 h s).src = s.src := by cases s; rfl
@[simp] theorem setMd5_len (h : Md5State) (s : State) : (setMd5 h s).len = s.len := by cases s; rfl
@[simp] theorem setMd5_dst (h : Md5State) (s : State) : (setMd5 h s).dst = s.dst := by cases s; rfl
@[simp] theorem setMd5_outlen (h : Md5State) (s : State) : (setMd5 h s).outlen = s.outlen := by cases s; rfl
@[simp] theorem setMd5_blkcnt (h : Md5State) (s : State) : (setMd5 h s).blkcnt = s.blkcnt := by cases s; rfl
@[simp] theorem setMd5_erraddr (h : Md5State) (s : State) : (setMd5 h s).erraddr = s.erraddr := by cases s; rfl
@[simp] theorem setMd5_h0 (h : Md5State) (s : State) : (setMd5 h s).h0 = h.a := by cases s; rfl
@[simp] theorem setMd5_h1 (h : Md5State) (s : State) : (setMd5 h s).h1 = h.b := by cases s; rfl
@[simp] theorem setMd5_h2 (h : Md5State) (s : State) : (setMd5 h s).h2 = h.c := by cases s; rfl
@[simp] theorem setMd5_h3 (h : Md5State) (s : State) : (setMd5 h s).h3 = h.d := by cases s; rfl
@[simp] theorem setMd5_h4 (h : Md5State) (s : State) : (setMd5 h s).h4 = s.h4 := by cases s; rfl
@[simp] theorem setMd5_blk (h : Md5State) (s : State) : (setMd5 h s).blk = s.blk := by cases s; rfl
@[simp] theorem setMd5_phase (h : Md5State) (s : State) : (setMd5 h s).phase = s.phase := by cases s; rfl
@[simp] theorem setMd5_eng (h : Md5State) (s : State) : (setMd5 h s).eng = s.eng := by cases s; rfl
@[simp] theorem setMd5_mem (h : Md5State) (s : State) : (setMd5 h s).mem = s.mem := by cases s; rfl
@[simp] theorem setMd5_busMap (h : Md5State) (s : State) : (setMd5 h s).busMap = s.busMap := by cases s; rfl
@[simp] theorem setMd5_rst (h : Md5State) (s : State) : (setMd5 h s).rst = s.rst := by cases s; rfl
@[simp] theorem setMd5_agenda (h : Md5State) (s : State) : (setMd5 h s).agenda = s.agenda := by cases s; rfl
@[simp] theorem setMd5_replies (h : Md5State) (s : State) : (setMd5 h s).replies = s.replies := by cases s; rfl
@[simp] theorem setMd5_port (h : Md5State) (s : State) : (setMd5 h s).port = s.port := by cases s; rfl
@[simp] theorem setMd5_raced (h : Md5State) (s : State) : (setMd5 h s).raced = s.raced := by cases s; rfl
@[simp] theorem setMd5_got (h : Md5State) (s : State) : (setMd5 h s).got = s.got := by cases s; rfl
@[simp] theorem setMd5_free (h : Md5State) (s : State) : (setMd5 h s).free = s.free := by cases s; rfl

/-! ### `setSha1`: H0..H4 written -/

@[simp] theorem setSha1_status (h : Sha1State) (s : State) : (setSha1 h s).status = s.status := by cases s; rfl
@[simp] theorem setSha1_ctrl (h : Sha1State) (s : State) : (setSha1 h s).ctrl = s.ctrl := by cases s; rfl
@[simp] theorem setSha1_src (h : Sha1State) (s : State) : (setSha1 h s).src = s.src := by cases s; rfl
@[simp] theorem setSha1_len (h : Sha1State) (s : State) : (setSha1 h s).len = s.len := by cases s; rfl
@[simp] theorem setSha1_dst (h : Sha1State) (s : State) : (setSha1 h s).dst = s.dst := by cases s; rfl
@[simp] theorem setSha1_outlen (h : Sha1State) (s : State) : (setSha1 h s).outlen = s.outlen := by cases s; rfl
@[simp] theorem setSha1_blkcnt (h : Sha1State) (s : State) : (setSha1 h s).blkcnt = s.blkcnt := by cases s; rfl
@[simp] theorem setSha1_erraddr (h : Sha1State) (s : State) : (setSha1 h s).erraddr = s.erraddr := by cases s; rfl
@[simp] theorem setSha1_h0 (h : Sha1State) (s : State) : (setSha1 h s).h0 = h.a := by cases s; rfl
@[simp] theorem setSha1_h1 (h : Sha1State) (s : State) : (setSha1 h s).h1 = h.b := by cases s; rfl
@[simp] theorem setSha1_h2 (h : Sha1State) (s : State) : (setSha1 h s).h2 = h.c := by cases s; rfl
@[simp] theorem setSha1_h3 (h : Sha1State) (s : State) : (setSha1 h s).h3 = h.d := by cases s; rfl
@[simp] theorem setSha1_h4 (h : Sha1State) (s : State) : (setSha1 h s).h4 = h.e := by cases s; rfl
@[simp] theorem setSha1_blk (h : Sha1State) (s : State) : (setSha1 h s).blk = s.blk := by cases s; rfl
@[simp] theorem setSha1_phase (h : Sha1State) (s : State) : (setSha1 h s).phase = s.phase := by cases s; rfl
@[simp] theorem setSha1_eng (h : Sha1State) (s : State) : (setSha1 h s).eng = s.eng := by cases s; rfl
@[simp] theorem setSha1_mem (h : Sha1State) (s : State) : (setSha1 h s).mem = s.mem := by cases s; rfl
@[simp] theorem setSha1_busMap (h : Sha1State) (s : State) : (setSha1 h s).busMap = s.busMap := by cases s; rfl
@[simp] theorem setSha1_rst (h : Sha1State) (s : State) : (setSha1 h s).rst = s.rst := by cases s; rfl
@[simp] theorem setSha1_agenda (h : Sha1State) (s : State) : (setSha1 h s).agenda = s.agenda := by cases s; rfl
@[simp] theorem setSha1_replies (h : Sha1State) (s : State) : (setSha1 h s).replies = s.replies := by cases s; rfl
@[simp] theorem setSha1_port (h : Sha1State) (s : State) : (setSha1 h s).port = s.port := by cases s; rfl
@[simp] theorem setSha1_raced (h : Sha1State) (s : State) : (setSha1 h s).raced = s.raced := by cases s; rfl
@[simp] theorem setSha1_got (h : Sha1State) (s : State) : (setSha1 h s).got = s.got := by cases s; rfl
@[simp] theorem setSha1_free (h : Sha1State) (s : State) : (setSha1 h s).free = s.free := by cases s; rfl

/-! ### `accept`: acceptance (43_control.md R193) -/

@[simp] theorem accept_status (w : Word) (s : State) : (accept w s).status = statusAccept s.status := by cases s; rfl
@[simp] theorem accept_ctrl (w : Word) (s : State) : (accept w s).ctrl = s.ctrl := by cases s; rfl
@[simp] theorem accept_src (w : Word) (s : State) : (accept w s).src = s.src := by cases s; rfl
@[simp] theorem accept_len (w : Word) (s : State) : (accept w s).len = s.len := by cases s; rfl
@[simp] theorem accept_dst (w : Word) (s : State) : (accept w s).dst = s.dst := by cases s; rfl
@[simp] theorem accept_outlen (w : Word) (s : State) : (accept w s).outlen = 0 := by cases s; rfl
@[simp] theorem accept_blkcnt (w : Word) (s : State) : (accept w s).blkcnt = s.blkcnt := by cases s; rfl
@[simp] theorem accept_erraddr (w : Word) (s : State) : (accept w s).erraddr = s.erraddr := by cases s; rfl
@[simp] theorem accept_h0 (w : Word) (s : State) : (accept w s).h0 = s.h0 := by cases s; rfl
@[simp] theorem accept_h1 (w : Word) (s : State) : (accept w s).h1 = s.h1 := by cases s; rfl
@[simp] theorem accept_h2 (w : Word) (s : State) : (accept w s).h2 = s.h2 := by cases s; rfl
@[simp] theorem accept_h3 (w : Word) (s : State) : (accept w s).h3 = s.h3 := by cases s; rfl
@[simp] theorem accept_h4 (w : Word) (s : State) : (accept w s).h4 = s.h4 := by cases s; rfl
@[simp] theorem accept_blk (w : Word) (s : State) : (accept w s).blk = s.blk := by cases s; rfl
@[simp] theorem accept_phase (w : Word) (s : State) : (accept w s).phase = .check := by cases s; rfl
@[simp] theorem accept_eng (w : Word) (s : State) : (accept w s).eng = latch w s := by cases s; rfl
@[simp] theorem accept_mem (w : Word) (s : State) : (accept w s).mem = s.mem := by cases s; rfl
@[simp] theorem accept_busMap (w : Word) (s : State) : (accept w s).busMap = s.busMap := by cases s; rfl
@[simp] theorem accept_rst (w : Word) (s : State) : (accept w s).rst = s.rst := by cases s; rfl
@[simp] theorem accept_agenda (w : Word) (s : State) : (accept w s).agenda = s.agenda := by cases s; rfl
@[simp] theorem accept_replies (w : Word) (s : State) : (accept w s).replies = s.replies := by cases s; rfl
@[simp] theorem accept_port (w : Word) (s : State) : (accept w s).port = s.port := by cases s; rfl
@[simp] theorem accept_raced (w : Word) (s : State) : (accept w s).raced = [] := by cases s; rfl
@[simp] theorem accept_got (w : Word) (s : State) : (accept w s).got = [] := by cases s; rfl
@[simp] theorem accept_free (w : Word) (s : State) : (accept w s).free = s.free := by cases s; rfl

/-! ### `finish`: completion (43_control.md R196) -/

@[simp] theorem finish_status (n : Nat) (r : Option CmdError) (s : State) : (finish n r s).status = statusComplete r s.status := by cases s; rfl
@[simp] theorem finish_ctrl (n : Nat) (r : Option CmdError) (s : State) : (finish n r s).ctrl = s.ctrl := by cases s; rfl
@[simp] theorem finish_src (n : Nat) (r : Option CmdError) (s : State) : (finish n r s).src = s.src := by cases s; rfl
@[simp] theorem finish_len (n : Nat) (r : Option CmdError) (s : State) : (finish n r s).len = s.len := by cases s; rfl
@[simp] theorem finish_dst (n : Nat) (r : Option CmdError) (s : State) : (finish n r s).dst = s.dst := by cases s; rfl
@[simp] theorem finish_outlen (n : Nat) (r : Option CmdError) (s : State) : (finish n r s).outlen = if r.isNone then BitVec.ofNat 64 n else s.outlen := by cases s; rfl
@[simp] theorem finish_blkcnt (n : Nat) (r : Option CmdError) (s : State) : (finish n r s).blkcnt = s.blkcnt := by cases s; rfl
@[simp] theorem finish_erraddr (n : Nat) (r : Option CmdError) (s : State) : (finish n r s).erraddr = errAddrAfter r s.erraddr := by cases s; rfl
@[simp] theorem finish_h0 (n : Nat) (r : Option CmdError) (s : State) : (finish n r s).h0 = s.h0 := by cases s; rfl
@[simp] theorem finish_h1 (n : Nat) (r : Option CmdError) (s : State) : (finish n r s).h1 = s.h1 := by cases s; rfl
@[simp] theorem finish_h2 (n : Nat) (r : Option CmdError) (s : State) : (finish n r s).h2 = s.h2 := by cases s; rfl
@[simp] theorem finish_h3 (n : Nat) (r : Option CmdError) (s : State) : (finish n r s).h3 = s.h3 := by cases s; rfl
@[simp] theorem finish_h4 (n : Nat) (r : Option CmdError) (s : State) : (finish n r s).h4 = s.h4 := by cases s; rfl
@[simp] theorem finish_blk (n : Nat) (r : Option CmdError) (s : State) : (finish n r s).blk = s.blk := by cases s; rfl
@[simp] theorem finish_phase (n : Nat) (r : Option CmdError) (s : State) : (finish n r s).phase = .idle := by cases s; rfl
@[simp] theorem finish_eng (n : Nat) (r : Option CmdError) (s : State) : (finish n r s).eng = freeEngine s.free := by cases s; rfl
@[simp] theorem finish_mem (n : Nat) (r : Option CmdError) (s : State) : (finish n r s).mem = s.mem := by cases s; rfl
@[simp] theorem finish_busMap (n : Nat) (r : Option CmdError) (s : State) : (finish n r s).busMap = s.busMap := by cases s; rfl
@[simp] theorem finish_rst (n : Nat) (r : Option CmdError) (s : State) : (finish n r s).rst = s.rst := by cases s; rfl
@[simp] theorem finish_agenda (n : Nat) (r : Option CmdError) (s : State) : (finish n r s).agenda = s.agenda := by cases s; rfl
@[simp] theorem finish_replies (n : Nat) (r : Option CmdError) (s : State) : (finish n r s).replies = s.replies := by cases s; rfl
@[simp] theorem finish_port (n : Nat) (r : Option CmdError) (s : State) : (finish n r s).port = s.port := by cases s; rfl
@[simp] theorem finish_raced (n : Nat) (r : Option CmdError) (s : State) : (finish n r s).raced = [] := by cases s; rfl
@[simp] theorem finish_got (n : Nat) (r : Option CmdError) (s : State) : (finish n r s).got = [] := by cases s; rfl
@[simp] theorem finish_free (n : Nat) (r : Option CmdError) (s : State) : (finish n r s).free = s.free + 1 := by cases s; rfl

/-! ### `reply`: the host is answered -/

@[simp] theorem reply_status (r : Reply) (s : State) : (reply r s).status = s.status := by cases s; rfl
@[simp] theorem reply_ctrl (r : Reply) (s : State) : (reply r s).ctrl = s.ctrl := by cases s; rfl
@[simp] theorem reply_src (r : Reply) (s : State) : (reply r s).src = s.src := by cases s; rfl
@[simp] theorem reply_len (r : Reply) (s : State) : (reply r s).len = s.len := by cases s; rfl
@[simp] theorem reply_dst (r : Reply) (s : State) : (reply r s).dst = s.dst := by cases s; rfl
@[simp] theorem reply_outlen (r : Reply) (s : State) : (reply r s).outlen = s.outlen := by cases s; rfl
@[simp] theorem reply_blkcnt (r : Reply) (s : State) : (reply r s).blkcnt = s.blkcnt := by cases s; rfl
@[simp] theorem reply_erraddr (r : Reply) (s : State) : (reply r s).erraddr = s.erraddr := by cases s; rfl
@[simp] theorem reply_h0 (r : Reply) (s : State) : (reply r s).h0 = s.h0 := by cases s; rfl
@[simp] theorem reply_h1 (r : Reply) (s : State) : (reply r s).h1 = s.h1 := by cases s; rfl
@[simp] theorem reply_h2 (r : Reply) (s : State) : (reply r s).h2 = s.h2 := by cases s; rfl
@[simp] theorem reply_h3 (r : Reply) (s : State) : (reply r s).h3 = s.h3 := by cases s; rfl
@[simp] theorem reply_h4 (r : Reply) (s : State) : (reply r s).h4 = s.h4 := by cases s; rfl
@[simp] theorem reply_blk (r : Reply) (s : State) : (reply r s).blk = s.blk := by cases s; rfl
@[simp] theorem reply_phase (r : Reply) (s : State) : (reply r s).phase = s.phase := by cases s; rfl
@[simp] theorem reply_eng (r : Reply) (s : State) : (reply r s).eng = s.eng := by cases s; rfl
@[simp] theorem reply_mem (r : Reply) (s : State) : (reply r s).mem = s.mem := by cases s; rfl
@[simp] theorem reply_busMap (r : Reply) (s : State) : (reply r s).busMap = s.busMap := by cases s; rfl
@[simp] theorem reply_rst (r : Reply) (s : State) : (reply r s).rst = s.rst := by cases s; rfl
@[simp] theorem reply_agenda (r : Reply) (s : State) : (reply r s).agenda = s.agenda := by cases s; rfl
@[simp] theorem reply_replies (r : Reply) (s : State) : (reply r s).replies = r :: s.replies := by cases s; rfl
@[simp] theorem reply_port (r : Reply) (s : State) : (reply r s).port = s.port := by cases s; rfl
@[simp] theorem reply_raced (r : Reply) (s : State) : (reply r s).raced = s.raced := by cases s; rfl
@[simp] theorem reply_got (r : Reply) (s : State) : (reply r s).got = s.got := by cases s; rfl
@[simp] theorem reply_free (r : Reply) (s : State) : (reply r s).free = s.free := by cases s; rfl

/-! ### `setMd5Block`: a block's result, counted -/

@[simp] theorem setMd5Block_status (h : Md5State) (s : State) : (setMd5Block h s).status = s.status := by cases s; rfl
@[simp] theorem setMd5Block_ctrl (h : Md5State) (s : State) : (setMd5Block h s).ctrl = s.ctrl := by cases s; rfl
@[simp] theorem setMd5Block_src (h : Md5State) (s : State) : (setMd5Block h s).src = s.src := by cases s; rfl
@[simp] theorem setMd5Block_len (h : Md5State) (s : State) : (setMd5Block h s).len = s.len := by cases s; rfl
@[simp] theorem setMd5Block_dst (h : Md5State) (s : State) : (setMd5Block h s).dst = s.dst := by cases s; rfl
@[simp] theorem setMd5Block_outlen (h : Md5State) (s : State) : (setMd5Block h s).outlen = s.outlen := by cases s; rfl
@[simp] theorem setMd5Block_blkcnt (h : Md5State) (s : State) : (setMd5Block h s).blkcnt = s.blkcnt + 1 := by cases s; rfl
@[simp] theorem setMd5Block_erraddr (h : Md5State) (s : State) : (setMd5Block h s).erraddr = s.erraddr := by cases s; rfl
@[simp] theorem setMd5Block_h0 (h : Md5State) (s : State) : (setMd5Block h s).h0 = h.a := by cases s; rfl
@[simp] theorem setMd5Block_h1 (h : Md5State) (s : State) : (setMd5Block h s).h1 = h.b := by cases s; rfl
@[simp] theorem setMd5Block_h2 (h : Md5State) (s : State) : (setMd5Block h s).h2 = h.c := by cases s; rfl
@[simp] theorem setMd5Block_h3 (h : Md5State) (s : State) : (setMd5Block h s).h3 = h.d := by cases s; rfl
@[simp] theorem setMd5Block_h4 (h : Md5State) (s : State) : (setMd5Block h s).h4 = s.h4 := by cases s; rfl
@[simp] theorem setMd5Block_blk (h : Md5State) (s : State) : (setMd5Block h s).blk = s.blk := by cases s; rfl
@[simp] theorem setMd5Block_phase (h : Md5State) (s : State) : (setMd5Block h s).phase = s.phase := by cases s; rfl
@[simp] theorem setMd5Block_eng (h : Md5State) (s : State) : (setMd5Block h s).eng = s.eng := by cases s; rfl
@[simp] theorem setMd5Block_mem (h : Md5State) (s : State) : (setMd5Block h s).mem = s.mem := by cases s; rfl
@[simp] theorem setMd5Block_busMap (h : Md5State) (s : State) : (setMd5Block h s).busMap = s.busMap := by cases s; rfl
@[simp] theorem setMd5Block_rst (h : Md5State) (s : State) : (setMd5Block h s).rst = s.rst := by cases s; rfl
@[simp] theorem setMd5Block_agenda (h : Md5State) (s : State) : (setMd5Block h s).agenda = s.agenda := by cases s; rfl
@[simp] theorem setMd5Block_replies (h : Md5State) (s : State) : (setMd5Block h s).replies = s.replies := by cases s; rfl
@[simp] theorem setMd5Block_port (h : Md5State) (s : State) : (setMd5Block h s).port = s.port := by cases s; rfl
@[simp] theorem setMd5Block_raced (h : Md5State) (s : State) : (setMd5Block h s).raced = s.raced := by cases s; rfl
@[simp] theorem setMd5Block_got (h : Md5State) (s : State) : (setMd5Block h s).got = s.got := by cases s; rfl
@[simp] theorem setMd5Block_free (h : Md5State) (s : State) : (setMd5Block h s).free = s.free := by cases s; rfl

/-! ### `setSha1Block`: a block's result, counted -/

@[simp] theorem setSha1Block_status (h : Sha1State) (s : State) : (setSha1Block h s).status = s.status := by cases s; rfl
@[simp] theorem setSha1Block_ctrl (h : Sha1State) (s : State) : (setSha1Block h s).ctrl = s.ctrl := by cases s; rfl
@[simp] theorem setSha1Block_src (h : Sha1State) (s : State) : (setSha1Block h s).src = s.src := by cases s; rfl
@[simp] theorem setSha1Block_len (h : Sha1State) (s : State) : (setSha1Block h s).len = s.len := by cases s; rfl
@[simp] theorem setSha1Block_dst (h : Sha1State) (s : State) : (setSha1Block h s).dst = s.dst := by cases s; rfl
@[simp] theorem setSha1Block_outlen (h : Sha1State) (s : State) : (setSha1Block h s).outlen = s.outlen := by cases s; rfl
@[simp] theorem setSha1Block_blkcnt (h : Sha1State) (s : State) : (setSha1Block h s).blkcnt = s.blkcnt + 1 := by cases s; rfl
@[simp] theorem setSha1Block_erraddr (h : Sha1State) (s : State) : (setSha1Block h s).erraddr = s.erraddr := by cases s; rfl
@[simp] theorem setSha1Block_h0 (h : Sha1State) (s : State) : (setSha1Block h s).h0 = h.a := by cases s; rfl
@[simp] theorem setSha1Block_h1 (h : Sha1State) (s : State) : (setSha1Block h s).h1 = h.b := by cases s; rfl
@[simp] theorem setSha1Block_h2 (h : Sha1State) (s : State) : (setSha1Block h s).h2 = h.c := by cases s; rfl
@[simp] theorem setSha1Block_h3 (h : Sha1State) (s : State) : (setSha1Block h s).h3 = h.d := by cases s; rfl
@[simp] theorem setSha1Block_h4 (h : Sha1State) (s : State) : (setSha1Block h s).h4 = h.e := by cases s; rfl
@[simp] theorem setSha1Block_blk (h : Sha1State) (s : State) : (setSha1Block h s).blk = s.blk := by cases s; rfl
@[simp] theorem setSha1Block_phase (h : Sha1State) (s : State) : (setSha1Block h s).phase = s.phase := by cases s; rfl
@[simp] theorem setSha1Block_eng (h : Sha1State) (s : State) : (setSha1Block h s).eng = s.eng := by cases s; rfl
@[simp] theorem setSha1Block_mem (h : Sha1State) (s : State) : (setSha1Block h s).mem = s.mem := by cases s; rfl
@[simp] theorem setSha1Block_busMap (h : Sha1State) (s : State) : (setSha1Block h s).busMap = s.busMap := by cases s; rfl
@[simp] theorem setSha1Block_rst (h : Sha1State) (s : State) : (setSha1Block h s).rst = s.rst := by cases s; rfl
@[simp] theorem setSha1Block_agenda (h : Sha1State) (s : State) : (setSha1Block h s).agenda = s.agenda := by cases s; rfl
@[simp] theorem setSha1Block_replies (h : Sha1State) (s : State) : (setSha1Block h s).replies = s.replies := by cases s; rfl
@[simp] theorem setSha1Block_port (h : Sha1State) (s : State) : (setSha1Block h s).port = s.port := by cases s; rfl
@[simp] theorem setSha1Block_raced (h : Sha1State) (s : State) : (setSha1Block h s).raced = s.raced := by cases s; rfl
@[simp] theorem setSha1Block_got (h : Sha1State) (s : State) : (setSha1Block h s).got = s.got := by cases s; rfl
@[simp] theorem setSha1Block_free (h : Sha1State) (s : State) : (setSha1Block h s).free = s.free := by cases s; rfl

/-! ### `initMd5Regs`: INIT_H of MD5 -/

@[simp] theorem initMd5Regs_status (s : State) : (initMd5Regs s).status = s.status := by cases s; rfl
@[simp] theorem initMd5Regs_ctrl (s : State) : (initMd5Regs s).ctrl = s.ctrl := by cases s; rfl
@[simp] theorem initMd5Regs_src (s : State) : (initMd5Regs s).src = s.src := by cases s; rfl
@[simp] theorem initMd5Regs_len (s : State) : (initMd5Regs s).len = s.len := by cases s; rfl
@[simp] theorem initMd5Regs_dst (s : State) : (initMd5Regs s).dst = s.dst := by cases s; rfl
@[simp] theorem initMd5Regs_outlen (s : State) : (initMd5Regs s).outlen = s.outlen := by cases s; rfl
@[simp] theorem initMd5Regs_blkcnt (s : State) : (initMd5Regs s).blkcnt = 0 := by cases s; rfl
@[simp] theorem initMd5Regs_erraddr (s : State) : (initMd5Regs s).erraddr = s.erraddr := by cases s; rfl
@[simp] theorem initMd5Regs_h0 (s : State) : (initMd5Regs s).h0 = md5Iv.a := by cases s; rfl
@[simp] theorem initMd5Regs_h1 (s : State) : (initMd5Regs s).h1 = md5Iv.b := by cases s; rfl
@[simp] theorem initMd5Regs_h2 (s : State) : (initMd5Regs s).h2 = md5Iv.c := by cases s; rfl
@[simp] theorem initMd5Regs_h3 (s : State) : (initMd5Regs s).h3 = md5Iv.d := by cases s; rfl
@[simp] theorem initMd5Regs_h4 (s : State) : (initMd5Regs s).h4 = s.h4 := by cases s; rfl
@[simp] theorem initMd5Regs_blk (s : State) : (initMd5Regs s).blk = s.blk := by cases s; rfl
@[simp] theorem initMd5Regs_phase (s : State) : (initMd5Regs s).phase = s.phase := by cases s; rfl
@[simp] theorem initMd5Regs_eng (s : State) : (initMd5Regs s).eng = s.eng := by cases s; rfl
@[simp] theorem initMd5Regs_mem (s : State) : (initMd5Regs s).mem = s.mem := by cases s; rfl
@[simp] theorem initMd5Regs_busMap (s : State) : (initMd5Regs s).busMap = s.busMap := by cases s; rfl
@[simp] theorem initMd5Regs_rst (s : State) : (initMd5Regs s).rst = s.rst := by cases s; rfl
@[simp] theorem initMd5Regs_agenda (s : State) : (initMd5Regs s).agenda = s.agenda := by cases s; rfl
@[simp] theorem initMd5Regs_replies (s : State) : (initMd5Regs s).replies = s.replies := by cases s; rfl
@[simp] theorem initMd5Regs_port (s : State) : (initMd5Regs s).port = s.port := by cases s; rfl
@[simp] theorem initMd5Regs_raced (s : State) : (initMd5Regs s).raced = s.raced := by cases s; rfl
@[simp] theorem initMd5Regs_got (s : State) : (initMd5Regs s).got = s.got := by cases s; rfl
@[simp] theorem initMd5Regs_free (s : State) : (initMd5Regs s).free = s.free := by cases s; rfl

/-! ### `initSha1Regs`: INIT_H of SHA-1 -/

@[simp] theorem initSha1Regs_status (s : State) : (initSha1Regs s).status = s.status := by cases s; rfl
@[simp] theorem initSha1Regs_ctrl (s : State) : (initSha1Regs s).ctrl = s.ctrl := by cases s; rfl
@[simp] theorem initSha1Regs_src (s : State) : (initSha1Regs s).src = s.src := by cases s; rfl
@[simp] theorem initSha1Regs_len (s : State) : (initSha1Regs s).len = s.len := by cases s; rfl
@[simp] theorem initSha1Regs_dst (s : State) : (initSha1Regs s).dst = s.dst := by cases s; rfl
@[simp] theorem initSha1Regs_outlen (s : State) : (initSha1Regs s).outlen = s.outlen := by cases s; rfl
@[simp] theorem initSha1Regs_blkcnt (s : State) : (initSha1Regs s).blkcnt = 0 := by cases s; rfl
@[simp] theorem initSha1Regs_erraddr (s : State) : (initSha1Regs s).erraddr = s.erraddr := by cases s; rfl
@[simp] theorem initSha1Regs_h0 (s : State) : (initSha1Regs s).h0 = sha1Iv.a := by cases s; rfl
@[simp] theorem initSha1Regs_h1 (s : State) : (initSha1Regs s).h1 = sha1Iv.b := by cases s; rfl
@[simp] theorem initSha1Regs_h2 (s : State) : (initSha1Regs s).h2 = sha1Iv.c := by cases s; rfl
@[simp] theorem initSha1Regs_h3 (s : State) : (initSha1Regs s).h3 = sha1Iv.d := by cases s; rfl
@[simp] theorem initSha1Regs_h4 (s : State) : (initSha1Regs s).h4 = sha1Iv.e := by cases s; rfl
@[simp] theorem initSha1Regs_blk (s : State) : (initSha1Regs s).blk = s.blk := by cases s; rfl
@[simp] theorem initSha1Regs_phase (s : State) : (initSha1Regs s).phase = s.phase := by cases s; rfl
@[simp] theorem initSha1Regs_eng (s : State) : (initSha1Regs s).eng = s.eng := by cases s; rfl
@[simp] theorem initSha1Regs_mem (s : State) : (initSha1Regs s).mem = s.mem := by cases s; rfl
@[simp] theorem initSha1Regs_busMap (s : State) : (initSha1Regs s).busMap = s.busMap := by cases s; rfl
@[simp] theorem initSha1Regs_rst (s : State) : (initSha1Regs s).rst = s.rst := by cases s; rfl
@[simp] theorem initSha1Regs_agenda (s : State) : (initSha1Regs s).agenda = s.agenda := by cases s; rfl
@[simp] theorem initSha1Regs_replies (s : State) : (initSha1Regs s).replies = s.replies := by cases s; rfl
@[simp] theorem initSha1Regs_port (s : State) : (initSha1Regs s).port = s.port := by cases s; rfl
@[simp] theorem initSha1Regs_raced (s : State) : (initSha1Regs s).raced = s.raced := by cases s; rfl
@[simp] theorem initSha1Regs_got (s : State) : (initSha1Regs s).got = s.got := by cases s; rfl
@[simp] theorem initSha1Regs_free (s : State) : (initSha1Regs s).free = s.free := by cases s; rfl

/-! ### `compressMd5Regs`: one block of MD5 -/

@[simp] theorem compressMd5Regs_status (s : State) : (compressMd5Regs s).status = s.status :=
  setMd5Block_status _ s
@[simp] theorem compressMd5Regs_ctrl (s : State) : (compressMd5Regs s).ctrl = s.ctrl :=
  setMd5Block_ctrl _ s
@[simp] theorem compressMd5Regs_src (s : State) : (compressMd5Regs s).src = s.src :=
  setMd5Block_src _ s
@[simp] theorem compressMd5Regs_len (s : State) : (compressMd5Regs s).len = s.len :=
  setMd5Block_len _ s
@[simp] theorem compressMd5Regs_dst (s : State) : (compressMd5Regs s).dst = s.dst :=
  setMd5Block_dst _ s
@[simp] theorem compressMd5Regs_outlen (s : State) : (compressMd5Regs s).outlen = s.outlen :=
  setMd5Block_outlen _ s
@[simp] theorem compressMd5Regs_blkcnt (s : State) : (compressMd5Regs s).blkcnt = s.blkcnt + 1 :=
  setMd5Block_blkcnt _ s
@[simp] theorem compressMd5Regs_erraddr (s : State) : (compressMd5Regs s).erraddr = s.erraddr :=
  setMd5Block_erraddr _ s
@[simp] theorem compressMd5Regs_h0 (s : State) : (compressMd5Regs s).h0 = (md5Compress (md5H4 s) s.blk).a :=
  setMd5Block_h0 _ s
@[simp] theorem compressMd5Regs_h1 (s : State) : (compressMd5Regs s).h1 = (md5Compress (md5H4 s) s.blk).b :=
  setMd5Block_h1 _ s
@[simp] theorem compressMd5Regs_h2 (s : State) : (compressMd5Regs s).h2 = (md5Compress (md5H4 s) s.blk).c :=
  setMd5Block_h2 _ s
@[simp] theorem compressMd5Regs_h3 (s : State) : (compressMd5Regs s).h3 = (md5Compress (md5H4 s) s.blk).d :=
  setMd5Block_h3 _ s
@[simp] theorem compressMd5Regs_h4 (s : State) : (compressMd5Regs s).h4 = s.h4 :=
  setMd5Block_h4 _ s
@[simp] theorem compressMd5Regs_blk (s : State) : (compressMd5Regs s).blk = s.blk :=
  setMd5Block_blk _ s
@[simp] theorem compressMd5Regs_phase (s : State) : (compressMd5Regs s).phase = s.phase :=
  setMd5Block_phase _ s
@[simp] theorem compressMd5Regs_eng (s : State) : (compressMd5Regs s).eng = s.eng :=
  setMd5Block_eng _ s
@[simp] theorem compressMd5Regs_mem (s : State) : (compressMd5Regs s).mem = s.mem :=
  setMd5Block_mem _ s
@[simp] theorem compressMd5Regs_busMap (s : State) : (compressMd5Regs s).busMap = s.busMap :=
  setMd5Block_busMap _ s
@[simp] theorem compressMd5Regs_rst (s : State) : (compressMd5Regs s).rst = s.rst :=
  setMd5Block_rst _ s
@[simp] theorem compressMd5Regs_agenda (s : State) : (compressMd5Regs s).agenda = s.agenda :=
  setMd5Block_agenda _ s
@[simp] theorem compressMd5Regs_replies (s : State) : (compressMd5Regs s).replies = s.replies :=
  setMd5Block_replies _ s
@[simp] theorem compressMd5Regs_port (s : State) : (compressMd5Regs s).port = s.port :=
  setMd5Block_port _ s
@[simp] theorem compressMd5Regs_raced (s : State) : (compressMd5Regs s).raced = s.raced :=
  setMd5Block_raced _ s
@[simp] theorem compressMd5Regs_got (s : State) : (compressMd5Regs s).got = s.got :=
  setMd5Block_got _ s
@[simp] theorem compressMd5Regs_free (s : State) : (compressMd5Regs s).free = s.free :=
  setMd5Block_free _ s

/-! ### `compressSha1Regs`: one block of SHA-1 -/

@[simp] theorem compressSha1Regs_status (s : State) : (compressSha1Regs s).status = s.status :=
  setSha1Block_status _ s
@[simp] theorem compressSha1Regs_ctrl (s : State) : (compressSha1Regs s).ctrl = s.ctrl :=
  setSha1Block_ctrl _ s
@[simp] theorem compressSha1Regs_src (s : State) : (compressSha1Regs s).src = s.src :=
  setSha1Block_src _ s
@[simp] theorem compressSha1Regs_len (s : State) : (compressSha1Regs s).len = s.len :=
  setSha1Block_len _ s
@[simp] theorem compressSha1Regs_dst (s : State) : (compressSha1Regs s).dst = s.dst :=
  setSha1Block_dst _ s
@[simp] theorem compressSha1Regs_outlen (s : State) : (compressSha1Regs s).outlen = s.outlen :=
  setSha1Block_outlen _ s
@[simp] theorem compressSha1Regs_blkcnt (s : State) : (compressSha1Regs s).blkcnt = s.blkcnt + 1 :=
  setSha1Block_blkcnt _ s
@[simp] theorem compressSha1Regs_erraddr (s : State) : (compressSha1Regs s).erraddr = s.erraddr :=
  setSha1Block_erraddr _ s
@[simp] theorem compressSha1Regs_h0 (s : State) : (compressSha1Regs s).h0 = (sha1Compress (sha1H5 s) s.blk).a :=
  setSha1Block_h0 _ s
@[simp] theorem compressSha1Regs_h1 (s : State) : (compressSha1Regs s).h1 = (sha1Compress (sha1H5 s) s.blk).b :=
  setSha1Block_h1 _ s
@[simp] theorem compressSha1Regs_h2 (s : State) : (compressSha1Regs s).h2 = (sha1Compress (sha1H5 s) s.blk).c :=
  setSha1Block_h2 _ s
@[simp] theorem compressSha1Regs_h3 (s : State) : (compressSha1Regs s).h3 = (sha1Compress (sha1H5 s) s.blk).d :=
  setSha1Block_h3 _ s
@[simp] theorem compressSha1Regs_h4 (s : State) : (compressSha1Regs s).h4 = (sha1Compress (sha1H5 s) s.blk).e :=
  setSha1Block_h4 _ s
@[simp] theorem compressSha1Regs_blk (s : State) : (compressSha1Regs s).blk = s.blk :=
  setSha1Block_blk _ s
@[simp] theorem compressSha1Regs_phase (s : State) : (compressSha1Regs s).phase = s.phase :=
  setSha1Block_phase _ s
@[simp] theorem compressSha1Regs_eng (s : State) : (compressSha1Regs s).eng = s.eng :=
  setSha1Block_eng _ s
@[simp] theorem compressSha1Regs_mem (s : State) : (compressSha1Regs s).mem = s.mem :=
  setSha1Block_mem _ s
@[simp] theorem compressSha1Regs_busMap (s : State) : (compressSha1Regs s).busMap = s.busMap :=
  setSha1Block_busMap _ s
@[simp] theorem compressSha1Regs_rst (s : State) : (compressSha1Regs s).rst = s.rst :=
  setSha1Block_rst _ s
@[simp] theorem compressSha1Regs_agenda (s : State) : (compressSha1Regs s).agenda = s.agenda :=
  setSha1Block_agenda _ s
@[simp] theorem compressSha1Regs_replies (s : State) : (compressSha1Regs s).replies = s.replies :=
  setSha1Block_replies _ s
@[simp] theorem compressSha1Regs_port (s : State) : (compressSha1Regs s).port = s.port :=
  setSha1Block_port _ s
@[simp] theorem compressSha1Regs_raced (s : State) : (compressSha1Regs s).raced = s.raced :=
  setSha1Block_raced _ s
@[simp] theorem compressSha1Regs_got (s : State) : (compressSha1Regs s).got = s.got :=
  setSha1Block_got _ s
@[simp] theorem compressSha1Regs_free (s : State) : (compressSha1Regs s).free = s.free :=
  setSha1Block_free _ s


/-! ### `hashMd5Of`: what it leaves alone -/

@[simp] theorem hashMd5Of_status (m : List Byte) (s : State) : (hashMd5Of m s).status = s.status := by cases s; rfl
@[simp] theorem hashMd5Of_ctrl (m : List Byte) (s : State) : (hashMd5Of m s).ctrl = s.ctrl := by cases s; rfl
@[simp] theorem hashMd5Of_src (m : List Byte) (s : State) : (hashMd5Of m s).src = s.src := by cases s; rfl
@[simp] theorem hashMd5Of_len (m : List Byte) (s : State) : (hashMd5Of m s).len = s.len := by cases s; rfl
@[simp] theorem hashMd5Of_dst (m : List Byte) (s : State) : (hashMd5Of m s).dst = s.dst := by cases s; rfl
@[simp] theorem hashMd5Of_outlen (m : List Byte) (s : State) : (hashMd5Of m s).outlen = s.outlen := by cases s; rfl
@[simp] theorem hashMd5Of_erraddr (m : List Byte) (s : State) : (hashMd5Of m s).erraddr = s.erraddr := by cases s; rfl
@[simp] theorem hashMd5Of_h4 (m : List Byte) (s : State) : (hashMd5Of m s).h4 = s.h4 := by cases s; rfl
@[simp] theorem hashMd5Of_phase (m : List Byte) (s : State) : (hashMd5Of m s).phase = s.phase := by cases s; rfl
@[simp] theorem hashMd5Of_eng (m : List Byte) (s : State) : (hashMd5Of m s).eng = s.eng := by cases s; rfl
@[simp] theorem hashMd5Of_busMap (m : List Byte) (s : State) : (hashMd5Of m s).busMap = s.busMap := by cases s; rfl
@[simp] theorem hashMd5Of_rst (m : List Byte) (s : State) : (hashMd5Of m s).rst = s.rst := by cases s; rfl
@[simp] theorem hashMd5Of_agenda (m : List Byte) (s : State) : (hashMd5Of m s).agenda = s.agenda := by cases s; rfl
@[simp] theorem hashMd5Of_replies (m : List Byte) (s : State) : (hashMd5Of m s).replies = s.replies := by cases s; rfl
@[simp] theorem hashMd5Of_port (m : List Byte) (s : State) : (hashMd5Of m s).port = s.port := by cases s; rfl
@[simp] theorem hashMd5Of_raced (m : List Byte) (s : State) : (hashMd5Of m s).raced = s.raced := by cases s; rfl
@[simp] theorem hashMd5Of_got (m : List Byte) (s : State) : (hashMd5Of m s).got = s.got := by cases s; rfl
@[simp] theorem hashMd5Of_free (m : List Byte) (s : State) : (hashMd5Of m s).free = s.free := by cases s; rfl

/-! ### `hashSha1Of`: what it leaves alone -/

@[simp] theorem hashSha1Of_status (m : List Byte) (s : State) : (hashSha1Of m s).status = s.status := by cases s; rfl
@[simp] theorem hashSha1Of_ctrl (m : List Byte) (s : State) : (hashSha1Of m s).ctrl = s.ctrl := by cases s; rfl
@[simp] theorem hashSha1Of_src (m : List Byte) (s : State) : (hashSha1Of m s).src = s.src := by cases s; rfl
@[simp] theorem hashSha1Of_len (m : List Byte) (s : State) : (hashSha1Of m s).len = s.len := by cases s; rfl
@[simp] theorem hashSha1Of_dst (m : List Byte) (s : State) : (hashSha1Of m s).dst = s.dst := by cases s; rfl
@[simp] theorem hashSha1Of_outlen (m : List Byte) (s : State) : (hashSha1Of m s).outlen = s.outlen := by cases s; rfl
@[simp] theorem hashSha1Of_erraddr (m : List Byte) (s : State) : (hashSha1Of m s).erraddr = s.erraddr := by cases s; rfl
@[simp] theorem hashSha1Of_phase (m : List Byte) (s : State) : (hashSha1Of m s).phase = s.phase := by cases s; rfl
@[simp] theorem hashSha1Of_eng (m : List Byte) (s : State) : (hashSha1Of m s).eng = s.eng := by cases s; rfl
@[simp] theorem hashSha1Of_busMap (m : List Byte) (s : State) : (hashSha1Of m s).busMap = s.busMap := by cases s; rfl
@[simp] theorem hashSha1Of_rst (m : List Byte) (s : State) : (hashSha1Of m s).rst = s.rst := by cases s; rfl
@[simp] theorem hashSha1Of_agenda (m : List Byte) (s : State) : (hashSha1Of m s).agenda = s.agenda := by cases s; rfl
@[simp] theorem hashSha1Of_replies (m : List Byte) (s : State) : (hashSha1Of m s).replies = s.replies := by cases s; rfl
@[simp] theorem hashSha1Of_port (m : List Byte) (s : State) : (hashSha1Of m s).port = s.port := by cases s; rfl
@[simp] theorem hashSha1Of_raced (m : List Byte) (s : State) : (hashSha1Of m s).raced = s.raced := by cases s; rfl
@[simp] theorem hashSha1Of_got (m : List Byte) (s : State) : (hashSha1Of m s).got = s.got := by cases s; rfl
@[simp] theorem hashSha1Of_free (m : List Byte) (s : State) : (hashSha1Of m s).free = s.free := by cases s; rfl

/-! ### `padOf`: what it leaves alone -/

@[simp] theorem padOf_status (g : Geom) (m : List Byte) (s : State) : (padOf g m s).status = s.status := by cases s; rfl
@[simp] theorem padOf_ctrl (g : Geom) (m : List Byte) (s : State) : (padOf g m s).ctrl = s.ctrl := by cases s; rfl
@[simp] theorem padOf_src (g : Geom) (m : List Byte) (s : State) : (padOf g m s).src = s.src := by cases s; rfl
@[simp] theorem padOf_len (g : Geom) (m : List Byte) (s : State) : (padOf g m s).len = s.len := by cases s; rfl
@[simp] theorem padOf_dst (g : Geom) (m : List Byte) (s : State) : (padOf g m s).dst = s.dst := by cases s; rfl
@[simp] theorem padOf_outlen (g : Geom) (m : List Byte) (s : State) : (padOf g m s).outlen = s.outlen := by cases s; rfl
@[simp] theorem padOf_blkcnt (g : Geom) (m : List Byte) (s : State) : (padOf g m s).blkcnt = s.blkcnt := by cases s; rfl
@[simp] theorem padOf_erraddr (g : Geom) (m : List Byte) (s : State) : (padOf g m s).erraddr = s.erraddr := by cases s; rfl
@[simp] theorem padOf_h0 (g : Geom) (m : List Byte) (s : State) : (padOf g m s).h0 = s.h0 := by cases s; rfl
@[simp] theorem padOf_h1 (g : Geom) (m : List Byte) (s : State) : (padOf g m s).h1 = s.h1 := by cases s; rfl
@[simp] theorem padOf_h2 (g : Geom) (m : List Byte) (s : State) : (padOf g m s).h2 = s.h2 := by cases s; rfl
@[simp] theorem padOf_h3 (g : Geom) (m : List Byte) (s : State) : (padOf g m s).h3 = s.h3 := by cases s; rfl
@[simp] theorem padOf_h4 (g : Geom) (m : List Byte) (s : State) : (padOf g m s).h4 = s.h4 := by cases s; rfl
@[simp] theorem padOf_blk (g : Geom) (m : List Byte) (s : State) : (padOf g m s).blk = s.blk := by cases s; rfl
@[simp] theorem padOf_phase (g : Geom) (m : List Byte) (s : State) : (padOf g m s).phase = s.phase := by cases s; rfl
@[simp] theorem padOf_eng (g : Geom) (m : List Byte) (s : State) : (padOf g m s).eng = s.eng := by cases s; rfl
@[simp] theorem padOf_busMap (g : Geom) (m : List Byte) (s : State) : (padOf g m s).busMap = s.busMap := by cases s; rfl
@[simp] theorem padOf_rst (g : Geom) (m : List Byte) (s : State) : (padOf g m s).rst = s.rst := by cases s; rfl
@[simp] theorem padOf_agenda (g : Geom) (m : List Byte) (s : State) : (padOf g m s).agenda = s.agenda := by cases s; rfl
@[simp] theorem padOf_replies (g : Geom) (m : List Byte) (s : State) : (padOf g m s).replies = s.replies := by cases s; rfl
@[simp] theorem padOf_port (g : Geom) (m : List Byte) (s : State) : (padOf g m s).port = s.port := by cases s; rfl
@[simp] theorem padOf_raced (g : Geom) (m : List Byte) (s : State) : (padOf g m s).raced = s.raced := by cases s; rfl
@[simp] theorem padOf_got (g : Geom) (m : List Byte) (s : State) : (padOf g m s).got = s.got := by cases s; rfl
@[simp] theorem padOf_free (g : Geom) (m : List Byte) (s : State) : (padOf g m s).free = s.free := by cases s; rfl

/-! ### `settleRaces`: what a source race leaves alone -/

@[simp] theorem settleRaces_status (i : Instr) (s : State) : (settleRaces i s).status = s.status := by
  unfold settleRaces
  split
  · cases i <;> simp [outputOf]
  · rfl
@[simp] theorem settleRaces_ctrl (i : Instr) (s : State) : (settleRaces i s).ctrl = s.ctrl := by
  unfold settleRaces
  split
  · cases i <;> simp [outputOf]
  · rfl
@[simp] theorem settleRaces_src (i : Instr) (s : State) : (settleRaces i s).src = s.src := by
  unfold settleRaces
  split
  · cases i <;> simp [outputOf]
  · rfl
@[simp] theorem settleRaces_len (i : Instr) (s : State) : (settleRaces i s).len = s.len := by
  unfold settleRaces
  split
  · cases i <;> simp [outputOf]
  · rfl
@[simp] theorem settleRaces_dst (i : Instr) (s : State) : (settleRaces i s).dst = s.dst := by
  unfold settleRaces
  split
  · cases i <;> simp [outputOf]
  · rfl
@[simp] theorem settleRaces_outlen (i : Instr) (s : State) : (settleRaces i s).outlen = s.outlen := by
  unfold settleRaces
  split
  · cases i <;> simp [outputOf]
  · rfl
@[simp] theorem settleRaces_blkcnt (i : Instr) (s : State) : (settleRaces i s).blkcnt = s.blkcnt := by
  unfold settleRaces
  split
  · cases i <;> rfl
  · rfl
@[simp] theorem settleRaces_erraddr (i : Instr) (s : State) : (settleRaces i s).erraddr = s.erraddr := by
  unfold settleRaces
  split
  · cases i <;> simp [outputOf]
  · rfl
@[simp] theorem settleRaces_phase (i : Instr) (s : State) : (settleRaces i s).phase = s.phase := by
  unfold settleRaces
  split
  · cases i <;> simp [outputOf]
  · rfl
@[simp] theorem settleRaces_eng (i : Instr) (s : State) : (settleRaces i s).eng = s.eng := by
  unfold settleRaces
  split
  · cases i <;> simp [outputOf]
  · rfl
@[simp] theorem settleRaces_busMap (i : Instr) (s : State) : (settleRaces i s).busMap = s.busMap := by
  unfold settleRaces
  split
  · cases i <;> simp [outputOf]
  · rfl
@[simp] theorem settleRaces_rst (i : Instr) (s : State) : (settleRaces i s).rst = s.rst := by
  unfold settleRaces
  split
  · cases i <;> simp [outputOf]
  · rfl
@[simp] theorem settleRaces_agenda (i : Instr) (s : State) : (settleRaces i s).agenda = s.agenda := by
  unfold settleRaces
  split
  · cases i <;> simp [outputOf]
  · rfl
@[simp] theorem settleRaces_replies (i : Instr) (s : State) : (settleRaces i s).replies = s.replies := by
  unfold settleRaces
  split
  · cases i <;> simp [outputOf]
  · rfl
@[simp] theorem settleRaces_port (i : Instr) (s : State) : (settleRaces i s).port = s.port := by
  unfold settleRaces
  split
  · cases i <;> simp [outputOf]
  · rfl
@[simp] theorem settleRaces_raced (i : Instr) (s : State) : (settleRaces i s).raced = s.raced := by
  unfold settleRaces
  split
  · cases i <;> simp [outputOf]
  · rfl
@[simp] theorem settleRaces_got (i : Instr) (s : State) : (settleRaces i s).got = s.got := by
  unfold settleRaces
  split
  · cases i <;> simp [outputOf]
  · rfl
@[simp] theorem settleRaces_free (i : Instr) (s : State) : (settleRaces i s).free = s.free := by
  unfold settleRaces
  split
  · cases i <;> simp [outputOf]
  · rfl

/-! ### `scrambleRegs`: what a bus error of a HASH leaves -/

@[simp] theorem scrambleRegs_status (i : Instr) (s : State) : (scrambleRegs i s).status = s.status := by cases i <;> simp only [scrambleRegs]
@[simp] theorem scrambleRegs_ctrl (i : Instr) (s : State) : (scrambleRegs i s).ctrl = s.ctrl := by cases i <;> simp only [scrambleRegs]
@[simp] theorem scrambleRegs_src (i : Instr) (s : State) : (scrambleRegs i s).src = s.src := by cases i <;> simp only [scrambleRegs]
@[simp] theorem scrambleRegs_len (i : Instr) (s : State) : (scrambleRegs i s).len = s.len := by cases i <;> simp only [scrambleRegs]
@[simp] theorem scrambleRegs_dst (i : Instr) (s : State) : (scrambleRegs i s).dst = s.dst := by cases i <;> simp only [scrambleRegs]
@[simp] theorem scrambleRegs_outlen (i : Instr) (s : State) : (scrambleRegs i s).outlen = s.outlen := by cases i <;> simp only [scrambleRegs]
@[simp] theorem scrambleRegs_erraddr (i : Instr) (s : State) : (scrambleRegs i s).erraddr = s.erraddr := by cases i <;> simp only [scrambleRegs]
@[simp] theorem scrambleRegs_phase (i : Instr) (s : State) : (scrambleRegs i s).phase = s.phase := by cases i <;> simp only [scrambleRegs]
@[simp] theorem scrambleRegs_eng (i : Instr) (s : State) : (scrambleRegs i s).eng = s.eng := by cases i <;> simp only [scrambleRegs]
@[simp] theorem scrambleRegs_mem (i : Instr) (s : State) : (scrambleRegs i s).mem = s.mem := by cases i <;> simp only [scrambleRegs]
@[simp] theorem scrambleRegs_busMap (i : Instr) (s : State) : (scrambleRegs i s).busMap = s.busMap := by cases i <;> simp only [scrambleRegs]
@[simp] theorem scrambleRegs_rst (i : Instr) (s : State) : (scrambleRegs i s).rst = s.rst := by cases i <;> simp only [scrambleRegs]
@[simp] theorem scrambleRegs_agenda (i : Instr) (s : State) : (scrambleRegs i s).agenda = s.agenda := by cases i <;> simp only [scrambleRegs]
@[simp] theorem scrambleRegs_replies (i : Instr) (s : State) : (scrambleRegs i s).replies = s.replies := by cases i <;> simp only [scrambleRegs]
@[simp] theorem scrambleRegs_port (i : Instr) (s : State) : (scrambleRegs i s).port = s.port := by cases i <;> simp only [scrambleRegs]
@[simp] theorem scrambleRegs_raced (i : Instr) (s : State) : (scrambleRegs i s).raced = s.raced := by cases i <;> simp only [scrambleRegs]
@[simp] theorem scrambleRegs_got (i : Instr) (s : State) : (scrambleRegs i s).got = s.got := by cases i <;> simp only [scrambleRegs]
@[simp] theorem scrambleRegs_free (i : Instr) (s : State) : (scrambleRegs i s).free = s.free := by cases i <;> simp only [scrambleRegs]

/-! ### `scrambleRaced`: what a destination race leaves -/

@[simp] theorem scrambleRaced_status (i : Instr) (s : State) : (scrambleRaced i s).status = s.status := by cases s; rfl
@[simp] theorem scrambleRaced_ctrl (i : Instr) (s : State) : (scrambleRaced i s).ctrl = s.ctrl := by cases s; rfl
@[simp] theorem scrambleRaced_src (i : Instr) (s : State) : (scrambleRaced i s).src = s.src := by cases s; rfl
@[simp] theorem scrambleRaced_len (i : Instr) (s : State) : (scrambleRaced i s).len = s.len := by cases s; rfl
@[simp] theorem scrambleRaced_dst (i : Instr) (s : State) : (scrambleRaced i s).dst = s.dst := by cases s; rfl
@[simp] theorem scrambleRaced_outlen (i : Instr) (s : State) : (scrambleRaced i s).outlen = s.outlen := by cases s; rfl
@[simp] theorem scrambleRaced_blkcnt (i : Instr) (s : State) : (scrambleRaced i s).blkcnt = s.blkcnt := by cases s; rfl
@[simp] theorem scrambleRaced_erraddr (i : Instr) (s : State) : (scrambleRaced i s).erraddr = s.erraddr := by cases s; rfl
@[simp] theorem scrambleRaced_h0 (i : Instr) (s : State) : (scrambleRaced i s).h0 = s.h0 := by cases s; rfl
@[simp] theorem scrambleRaced_h1 (i : Instr) (s : State) : (scrambleRaced i s).h1 = s.h1 := by cases s; rfl
@[simp] theorem scrambleRaced_h2 (i : Instr) (s : State) : (scrambleRaced i s).h2 = s.h2 := by cases s; rfl
@[simp] theorem scrambleRaced_h3 (i : Instr) (s : State) : (scrambleRaced i s).h3 = s.h3 := by cases s; rfl
@[simp] theorem scrambleRaced_h4 (i : Instr) (s : State) : (scrambleRaced i s).h4 = s.h4 := by cases s; rfl
@[simp] theorem scrambleRaced_blk (i : Instr) (s : State) : (scrambleRaced i s).blk = s.blk := by cases s; rfl
@[simp] theorem scrambleRaced_phase (i : Instr) (s : State) : (scrambleRaced i s).phase = s.phase := by cases s; rfl
@[simp] theorem scrambleRaced_eng (i : Instr) (s : State) : (scrambleRaced i s).eng = s.eng := by cases s; rfl
@[simp] theorem scrambleRaced_busMap (i : Instr) (s : State) : (scrambleRaced i s).busMap = s.busMap := by cases s; rfl
@[simp] theorem scrambleRaced_rst (i : Instr) (s : State) : (scrambleRaced i s).rst = s.rst := by cases s; rfl
@[simp] theorem scrambleRaced_agenda (i : Instr) (s : State) : (scrambleRaced i s).agenda = s.agenda := by cases s; rfl
@[simp] theorem scrambleRaced_replies (i : Instr) (s : State) : (scrambleRaced i s).replies = s.replies := by cases s; rfl
@[simp] theorem scrambleRaced_port (i : Instr) (s : State) : (scrambleRaced i s).port = s.port := by cases s; rfl
@[simp] theorem scrambleRaced_raced (i : Instr) (s : State) : (scrambleRaced i s).raced = s.raced := by cases s; rfl
@[simp] theorem scrambleRaced_got (i : Instr) (s : State) : (scrambleRaced i s).got = s.got := by cases s; rfl
@[simp] theorem scrambleRaced_free (i : Instr) (s : State) : (scrambleRaced i s).free = s.free := by cases s; rfl

/-! ### `unsettle`: what no hazard touches -/

@[simp] theorem unsettle_status (i : Instr) (r : Option CmdError) (s : State) : (unsettle i r s).status = s.status := by
  rcases r with _ | e
  · simp only [unsettle]; split <;> simp
  · cases e <;> simp only [unsettle, scrambleRegs_status, scrambleRaced_status]
@[simp] theorem unsettle_ctrl (i : Instr) (r : Option CmdError) (s : State) : (unsettle i r s).ctrl = s.ctrl := by
  rcases r with _ | e
  · simp only [unsettle]; split <;> simp
  · cases e <;> simp only [unsettle, scrambleRegs_ctrl, scrambleRaced_ctrl]
@[simp] theorem unsettle_src (i : Instr) (r : Option CmdError) (s : State) : (unsettle i r s).src = s.src := by
  rcases r with _ | e
  · simp only [unsettle]; split <;> simp
  · cases e <;> simp only [unsettle, scrambleRegs_src, scrambleRaced_src]
@[simp] theorem unsettle_len (i : Instr) (r : Option CmdError) (s : State) : (unsettle i r s).len = s.len := by
  rcases r with _ | e
  · simp only [unsettle]; split <;> simp
  · cases e <;> simp only [unsettle, scrambleRegs_len, scrambleRaced_len]
@[simp] theorem unsettle_dst (i : Instr) (r : Option CmdError) (s : State) : (unsettle i r s).dst = s.dst := by
  rcases r with _ | e
  · simp only [unsettle]; split <;> simp
  · cases e <;> simp only [unsettle, scrambleRegs_dst, scrambleRaced_dst]
@[simp] theorem unsettle_outlen (i : Instr) (r : Option CmdError) (s : State) : (unsettle i r s).outlen = s.outlen := by
  rcases r with _ | e
  · simp only [unsettle]; split <;> simp
  · cases e <;> simp only [unsettle, scrambleRegs_outlen, scrambleRaced_outlen]
@[simp] theorem unsettle_erraddr (i : Instr) (r : Option CmdError) (s : State) : (unsettle i r s).erraddr = s.erraddr := by
  rcases r with _ | e
  · simp only [unsettle]; split <;> simp
  · cases e <;> simp only [unsettle, scrambleRegs_erraddr, scrambleRaced_erraddr]
@[simp] theorem unsettle_phase (i : Instr) (r : Option CmdError) (s : State) : (unsettle i r s).phase = s.phase := by
  rcases r with _ | e
  · simp only [unsettle]; split <;> simp
  · cases e <;> simp only [unsettle, scrambleRegs_phase, scrambleRaced_phase]
@[simp] theorem unsettle_eng (i : Instr) (r : Option CmdError) (s : State) : (unsettle i r s).eng = s.eng := by
  rcases r with _ | e
  · simp only [unsettle]; split <;> simp
  · cases e <;> simp only [unsettle, scrambleRegs_eng, scrambleRaced_eng]
@[simp] theorem unsettle_busMap (i : Instr) (r : Option CmdError) (s : State) : (unsettle i r s).busMap = s.busMap := by
  rcases r with _ | e
  · simp only [unsettle]; split <;> simp
  · cases e <;> simp only [unsettle, scrambleRegs_busMap, scrambleRaced_busMap]
@[simp] theorem unsettle_rst (i : Instr) (r : Option CmdError) (s : State) : (unsettle i r s).rst = s.rst := by
  rcases r with _ | e
  · simp only [unsettle]; split <;> simp
  · cases e <;> simp only [unsettle, scrambleRegs_rst, scrambleRaced_rst]
@[simp] theorem unsettle_agenda (i : Instr) (r : Option CmdError) (s : State) : (unsettle i r s).agenda = s.agenda := by
  rcases r with _ | e
  · simp only [unsettle]; split <;> simp
  · cases e <;> simp only [unsettle, scrambleRegs_agenda, scrambleRaced_agenda]
@[simp] theorem unsettle_replies (i : Instr) (r : Option CmdError) (s : State) : (unsettle i r s).replies = s.replies := by
  rcases r with _ | e
  · simp only [unsettle]; split <;> simp
  · cases e <;> simp only [unsettle, scrambleRegs_replies, scrambleRaced_replies]
@[simp] theorem unsettle_port (i : Instr) (r : Option CmdError) (s : State) : (unsettle i r s).port = s.port := by
  rcases r with _ | e
  · simp only [unsettle]; split <;> simp
  · cases e <;> simp only [unsettle, scrambleRegs_port, scrambleRaced_port]
@[simp] theorem unsettle_raced (i : Instr) (r : Option CmdError) (s : State) : (unsettle i r s).raced = s.raced := by
  rcases r with _ | e
  · simp only [unsettle]; split <;> simp
  · cases e <;> simp only [unsettle, scrambleRegs_raced, scrambleRaced_raced]
@[simp] theorem unsettle_got (i : Instr) (r : Option CmdError) (s : State) : (unsettle i r s).got = s.got := by
  rcases r with _ | e
  · simp only [unsettle]; split <;> simp
  · cases e <;> simp only [unsettle, scrambleRegs_got, scrambleRaced_got]
@[simp] theorem unsettle_free (i : Instr) (r : Option CmdError) (s : State) : (unsettle i r s).free = s.free := by
  rcases r with _ | e
  · simp only [unsettle]; split <;> simp
  · cases e <;> simp only [unsettle, scrambleRegs_free, scrambleRaced_free]
@[simp] theorem unsettle_ok_h0 (i : Instr) (s : State) : (unsettle i none s).h0 = s.h0 := by
  simp only [unsettle]; split <;> simp
@[simp] theorem unsettle_ok_h1 (i : Instr) (s : State) : (unsettle i none s).h1 = s.h1 := by
  simp only [unsettle]; split <;> simp
@[simp] theorem unsettle_ok_h2 (i : Instr) (s : State) : (unsettle i none s).h2 = s.h2 := by
  simp only [unsettle]; split <;> simp
@[simp] theorem unsettle_ok_h3 (i : Instr) (s : State) : (unsettle i none s).h3 = s.h3 := by
  simp only [unsettle]; split <;> simp
@[simp] theorem unsettle_ok_h4 (i : Instr) (s : State) : (unsettle i none s).h4 = s.h4 := by
  simp only [unsettle]; split <;> simp
@[simp] theorem unsettle_ok_blk (i : Instr) (s : State) : (unsettle i none s).blk = s.blk := by
  simp only [unsettle]; split <;> simp
@[simp] theorem unsettle_ok_blkcnt (i : Instr) (s : State) : (unsettle i none s).blkcnt = s.blkcnt := by
  simp only [unsettle]; split <;> simp
@[simp] theorem unsettle_cmd (i : Instr) (s : State) : unsettle i (some .cmd) s = s := rfl
@[simp] theorem unsettle_size (i : Instr) (s : State) : unsettle i (some .size) s = scrambleRaced i s := rfl
@[simp] theorem unsettle_addr (i : Instr) (s : State) : unsettle i (some .addr) s = scrambleRaced i s := rfl

/-! ### `complete`: the end of a command -/

@[simp] theorem complete_status (i : Instr) (r : Option CmdError) (s : State) :
    (complete i r s).status = statusComplete r s.status := by simp [complete]
@[simp] theorem complete_ctrl (i : Instr) (r : Option CmdError) (s : State) :
    (complete i r s).ctrl = s.ctrl := by simp [complete]
@[simp] theorem complete_src (i : Instr) (r : Option CmdError) (s : State) :
    (complete i r s).src = s.src := by simp [complete]
@[simp] theorem complete_len (i : Instr) (r : Option CmdError) (s : State) :
    (complete i r s).len = s.len := by simp [complete]
@[simp] theorem complete_dst (i : Instr) (r : Option CmdError) (s : State) :
    (complete i r s).dst = s.dst := by simp [complete]
@[simp] theorem complete_outlen (i : Instr) (r : Option CmdError) (s : State) :
    (complete i r s).outlen = if r.isNone then BitVec.ofNat 64 (outBytes i s) else s.outlen := by simp [complete]
@[simp] theorem complete_blkcnt (i : Instr) (r : Option CmdError) (s : State) : (complete i r s).blkcnt = (unsettle i r s).blkcnt := by
  simp [complete]
@[simp] theorem complete_erraddr (i : Instr) (r : Option CmdError) (s : State) :
    (complete i r s).erraddr = errAddrAfter r s.erraddr := by simp [complete]
@[simp] theorem complete_h0 (i : Instr) (r : Option CmdError) (s : State) : (complete i r s).h0 = (unsettle i r s).h0 := by
  simp [complete]
@[simp] theorem complete_h1 (i : Instr) (r : Option CmdError) (s : State) : (complete i r s).h1 = (unsettle i r s).h1 := by
  simp [complete]
@[simp] theorem complete_h2 (i : Instr) (r : Option CmdError) (s : State) : (complete i r s).h2 = (unsettle i r s).h2 := by
  simp [complete]
@[simp] theorem complete_h3 (i : Instr) (r : Option CmdError) (s : State) : (complete i r s).h3 = (unsettle i r s).h3 := by
  simp [complete]
@[simp] theorem complete_h4 (i : Instr) (r : Option CmdError) (s : State) : (complete i r s).h4 = (unsettle i r s).h4 := by
  simp [complete]
@[simp] theorem complete_blk (i : Instr) (r : Option CmdError) (s : State) : (complete i r s).blk = (unsettle i r s).blk := by
  simp [complete]
@[simp] theorem complete_phase (i : Instr) (r : Option CmdError) (s : State) :
    (complete i r s).phase = .idle := by simp [complete]
@[simp] theorem complete_eng (i : Instr) (r : Option CmdError) (s : State) :
    (complete i r s).eng = freeEngine s.free := by simp [complete]
@[simp] theorem complete_mem (i : Instr) (r : Option CmdError) (s : State) : (complete i r s).mem = (unsettle i r s).mem := by
  simp [complete]
@[simp] theorem complete_busMap (i : Instr) (r : Option CmdError) (s : State) :
    (complete i r s).busMap = s.busMap := by simp [complete]
@[simp] theorem complete_rst (i : Instr) (r : Option CmdError) (s : State) :
    (complete i r s).rst = s.rst := by simp [complete]
@[simp] theorem complete_agenda (i : Instr) (r : Option CmdError) (s : State) :
    (complete i r s).agenda = s.agenda := by simp [complete]
@[simp] theorem complete_replies (i : Instr) (r : Option CmdError) (s : State) :
    (complete i r s).replies = s.replies := by simp [complete]
@[simp] theorem complete_port (i : Instr) (r : Option CmdError) (s : State) :
    (complete i r s).port = s.port := by simp [complete]
@[simp] theorem complete_raced (i : Instr) (r : Option CmdError) (s : State) :
    (complete i r s).raced = [] := by simp [complete]
@[simp] theorem complete_got (i : Instr) (r : Option CmdError) (s : State) :
    (complete i r s).got = [] := by simp [complete]
@[simp] theorem complete_free (i : Instr) (r : Option CmdError) (s : State) :
    (complete i r s).free = s.free + 1 := by simp [complete]

end Sys2Proof.Machine
end

