-- ==== Sys2Proof/Laws/Host.lean ====
section
/-! SUPPORT. What a host transaction on the register window does, said once. -/

namespace Sys2Proof.Machine

/-- Every register is found at its offset. -/
@[simp] theorem regAt_offsetOf (r : Reg) : regAt (offsetOf r) = some r := by
  cases r with
  | blkw j => revert j; decide +kernel
  | _ => decide +kernel

/-- Every register's offset is a multiple of 4. -/
@[simp] theorem legalAccess_offsetOf (r : Reg) : legalAccess 4 (offsetOf r) = true := by
  cases r with
  | blkw j => revert j; decide +kernel
  | _ => decide +kernel

/-- An offset no register has is found to hold none. -/
theorem regAt_unlisted (off : BitVec 12) (h : ∀ r, offsetOf r ≠ off) : regAt off = none := by
  simp only [regAt, List.find?_eq_none]
  intro r _
  simpa using h r

/-- A write to a register out of reset. -/
theorem hostWrite_reg (r : Reg) (v : Word) (s : State) (h : s.rst = false) :
    hostWrite 4 (offsetOf r) v s = reply .done (writeReg r v s) := by
  simp [hostWrite, h, writeOffset]

/-- A read of a register whose value is settled. -/
theorem hostRead_reg (r : Reg) (s : State) (h : s.rst = false)
    (hb : s.status.busy = false ∨ unreadableWhileBusy r = false) :
    hostRead 4 (offsetOf r) s = reply (.word (readReg r s)) s := by
  rcases hb with hb | hb <;> simp [hostRead, readIsFree, h, readOffset, hb]

/-- A step that takes a register write, out of reset. -/
theorem step_hostWR (r : Reg) (v : Word) (s : State) (rest : List Event) (ha : s.agenda = hostWR r v :: rest)
    (h : s.rst = false) : step s = .next (reply .done (writeReg r v { s with agenda := rest })) := by
  simp [step, ha, hostWR, perform, hostWrite_reg, h]

/-- A step that takes a register read of a settled value. -/
theorem step_hostRD (r : Reg) (s : State) (rest : List Event) (ha : s.agenda = hostRD r :: rest) (h : s.rst = false)
    (hb : s.status.busy = false ∨ unreadableWhileBusy r = false) :
    step s = .next (reply (.word (readReg r s)) { s with agenda := rest }) := by
  simp only [step, ha, hostRD, perform]
  rw [hostRead_reg r { s with agenda := rest } h hb]
  cases r <;> rfl

end Sys2Proof.Machine
end

