-- ==== Sys2Proof/Laws/Memory.lean ====
section
/-! SUPPORT. The laws of system memory: read after write, the canonical form, and what the scrambles leave alone. -/

namespace Sys2Proof.Machine

@[simp] theorem readByte_nil (a : Nat) : readByte [] a = unlistedByte := rfl

/-- An address below every listed one is unlisted. -/
theorem readByte_of_lt (m : List Host.Cell) (a : Nat) (h : ∀ c ∈ m, a < c.1) : readByte m a = unlistedByte := by
  induction m with
  | nil => rfl
  | cons c m ih =>
    obtain ⟨b, v⟩ := c
    have hb : a < b := h (b, v) (by simp)
    have : a ≠ b := by omega
    simp only [readByte, this, if_false]
    exact ih fun c hc => h c (by simp [hc])

/-- What a write leaves at every address of a memory in strictly rising order. -/
theorem readByte_writeByte (m : List Host.Cell) (hm : m.Pairwise (fun c d => c.1 < d.1)) (a b : Nat) (v : Byte) :
    readByte (writeByte m a v) b = if b = a then v else readByte m b := by
  induction m with
  | nil =>
    by_cases hv : v = unlistedByte <;> by_cases hb : b = a <;> simp [writeByte, readByte, hv, hb]
  | cons c m ih =>
    obtain ⟨x, u⟩ := c
    rw [List.pairwise_cons] at hm
    have hlt : ∀ c ∈ m, x < c.1 := hm.1
    by_cases h1 : a < x
    · have hun : readByte m a = unlistedByte := readByte_of_lt m a fun c hc => lt_trans h1 (hlt c hc)
      by_cases hv : v = unlistedByte <;> by_cases hb : b = a <;> simp [writeByte, readByte, h1, hv, hb, hun]; omega
    · by_cases h2 : a = x
      · subst h2
        have hun : readByte m a = unlistedByte := readByte_of_lt m a hlt
        by_cases hv : v = unlistedByte <;> by_cases hb : b = a <;> simp [writeByte, readByte, hv, hb, hun]
      · by_cases hb : b = x
        · subst hb
          simp [writeByte, readByte, h1, h2, Ne.symm h2]
        · simp [writeByte, readByte, h1, h2, hb, ih hm.2]

/-- A write leaves every other address alone, in any list. -/
theorem readByte_writeByte_other (m : List Host.Cell) (a b : Nat) (v : Byte) (h : b ≠ a) :
    readByte (writeByte m a v) b = readByte m b := by
  induction m with
  | nil => by_cases hv : v = unlistedByte <;> simp [writeByte, readByte, hv, h]
  | cons c m ih =>
    obtain ⟨x, u⟩ := c
    by_cases h1 : a < x
    · by_cases hv : v = unlistedByte <;> simp [writeByte, readByte, h1, hv, h]
    · by_cases h2 : a = x
      · subst h2
        by_cases hv : v = unlistedByte <;> simp [writeByte, readByte, hv, h]
      · simp [writeByte, readByte, h1, h2, ih]

/-- Every address a write lists was listed or is the written one. -/
theorem mem_writeByte (m : List Host.Cell) (a : Nat) (v : Byte) (c : Host.Cell) (hc : c ∈ writeByte m a v) :
    c ∈ m ∨ (c = (a, v) ∧ v ≠ unlistedByte) := by
  induction m with
  | nil => by_cases hv : v = unlistedByte <;> simp_all [writeByte]
  | cons d m ih =>
    obtain ⟨x, u⟩ := d
    unfold writeByte at hc
    split at hc
    · split at hc <;> simp_all
      tauto
    · split at hc
      · split at hc <;> simp_all
        tauto
      · simp only [List.mem_cons] at hc ⊢
        rcases hc with hc | hc
        · tauto
        · rcases ih hc with h | h <;> tauto

/-- A write keeps the addresses strictly rising. -/
theorem writeByte_pairwise (m : List Host.Cell) (hm : m.Pairwise (fun c d => c.1 < d.1)) (a : Nat) (v : Byte) :
    (writeByte m a v).Pairwise (fun c d => c.1 < d.1) := by
  induction m with
  | nil => by_cases hv : v = unlistedByte <;> simp [writeByte, hv]
  | cons d m ih =>
    obtain ⟨x, u⟩ := d
    have hm' := List.pairwise_cons.1 hm
    unfold writeByte
    split
    · split
      · exact hm
      · refine List.pairwise_cons.2 ⟨?_, hm⟩
        intro c hc
        rcases List.mem_cons.1 hc with rfl | hc
        · assumption
        · exact lt_trans ‹a < x› (hm'.1 c hc)
    · split
      · subst_vars
        split
        · exact hm'.2
        · exact List.pairwise_cons.2 ⟨hm'.1, hm'.2⟩
      · refine List.pairwise_cons.2 ⟨?_, ih hm'.2⟩
        intro c hc
        rcases mem_writeByte m a v c hc with h | ⟨rfl, _⟩
        · exact hm'.1 c h
        · show x < a
          omega

/-- A write inside the address space keeps the canonical form. -/
theorem writeByte_wf (m : List Host.Cell) (hm : Memory.wf m) (a : Nat) (v : Byte) (ha : a < Config.addrLimit) :
    Memory.wf (writeByte m a v) := by
  refine ⟨writeByte_pairwise m hm.1 a v, fun c hc => ?_⟩
  rcases mem_writeByte m a v c hc with h | ⟨rfl, hv⟩
  · exact hm.2 c h
  · exact ⟨hv, ha⟩

/-- Two memories in canonical form that read alike are equal data. -/
theorem memory_ext (m n : List Host.Cell) (hm : Memory.wf m) (hn : Memory.wf n)
    (h : ∀ a, readByte m a = readByte n a) : m = n := by
  induction m generalizing n with
  | nil =>
    cases n with
    | nil => rfl
    | cons d n =>
      have := h d.1
      simp only [readByte, if_true] at this
      exact absurd this.symm (hn.2 d (by simp)).1
  | cons c m ih =>
    have hmp := List.pairwise_cons.1 hm.1
    cases n with
    | nil =>
      have := h c.1
      simp only [readByte, if_true] at this
      exact absurd this (hm.2 c (by simp)).1
    | cons d n =>
      obtain ⟨x, u⟩ := c
      obtain ⟨y, v⟩ := d
      have hnp := List.pairwise_cons.1 hn.1
      have hxy : x = y := by
        by_contra hne
        rcases Nat.lt_or_gt_of_ne hne with hlt | hlt
        · have hx := h x
          rw [readByte_of_lt ((y, v) :: n) x (by
            intro c hc
            rcases List.mem_cons.1 hc with rfl | hc
            · exact hlt
            · exact lt_trans hlt (hnp.1 c hc))] at hx
          simp only [readByte, if_true] at hx
          exact (hm.2 (x, u) (by simp)).1 hx
        · have hy := h y
          rw [readByte_of_lt ((x, u) :: m) y (by
            intro c hc
            rcases List.mem_cons.1 hc with rfl | hc
            · exact hlt
            · exact lt_trans hlt (hmp.1 c hc))] at hy
          simp only [readByte, if_true] at hy
          exact (hn.2 (y, v) (by simp)).1 hy.symm
      subst hxy
      have huv : u = v := by simpa [readByte] using h x
      subst huv
      congr 1
      refine ih n ⟨hmp.2, fun c hc => hm.2 c (by simp [hc])⟩ ⟨hnp.2, fun c hc => hn.2 c (by simp [hc])⟩ fun a => ?_
      by_cases ha : a = x
      · subst ha
        rw [readByte_of_lt m a hmp.1, readByte_of_lt n a hnp.1]
      · simpa [readByte, ha] using h a

/-- A run of writes keeps the addresses strictly rising. -/
theorem writeBytes_pairwise (vs : List Byte) (m : List Host.Cell) (hm : m.Pairwise (fun c d => c.1 < d.1)) (a : Nat) :
    (writeBytes m a vs).Pairwise (fun c d => c.1 < d.1) := by
  induction vs generalizing m a with
  | nil => exact hm
  | cons v vs ih => exact ih _ (writeByte_pairwise m hm a v) _

/-- What a run of writes leaves at every address. -/
theorem readByte_writeBytes (vs : List Byte) (m : List Host.Cell) (hm : m.Pairwise (fun c d => c.1 < d.1)) (a b : Nat) :
    readByte (writeBytes m a vs) b = if a ≤ b ∧ b < a + vs.length then vs.getD (b - a) 0 else readByte m b := by
  induction vs generalizing m a with
  | nil => simp only [writeBytes, List.length_nil]; rw [if_neg (by omega)]
  | cons v vs ih =>
    simp only [writeBytes]
    rw [ih _ (writeByte_pairwise m hm a v), readByte_writeByte m hm]
    by_cases h0 : b = a
    · subst h0
      rw [if_neg (by omega), if_pos rfl, if_pos (by simp)]
      simp
    · by_cases h : a + 1 ≤ b ∧ b < a + 1 + vs.length
      · rw [if_pos h, if_pos (by simp only [List.length_cons]; omega)]
        obtain ⟨k, rfl⟩ : ∃ k, b = a + 1 + k := ⟨b - (a + 1), by omega⟩
        rw [show a + 1 + k - (a + 1) = k by omega, show a + 1 + k - a = k + 1 by omega]
        simp
      · rw [if_neg h, if_neg h0, if_neg (by simp only [List.length_cons]; omega)]

/-- A run of writes leaves every address outside it alone, in any list. -/
theorem readByte_writeBytes_other (vs : List Byte) (m : List Host.Cell) (a b : Nat) (h : ¬(a ≤ b ∧ b < a + vs.length)) :
    readByte (writeBytes m a vs) b = readByte m b := by
  induction vs generalizing m a with
  | nil => rfl
  | cons v vs ih =>
    simp only [List.length_cons] at h
    rw [writeBytes, ih _ _ (by omega), readByte_writeByte_other _ _ _ _ (by omega)]

/-- A run of writes inside the address space keeps the canonical form. -/
theorem writeBytes_wf (vs : List Byte) (m : List Host.Cell) (hm : Memory.wf m) (a : Nat)
    (ha : a + vs.length ≤ Config.addrLimit) : Memory.wf (writeBytes m a vs) := by
  induction vs generalizing m a with
  | nil => exact hm
  | cons v vs ih =>
    simp only [List.length_cons] at ha
    exact ih _ (writeByte_wf m hm a v (by omega)) _ (by omega)

/-- A fold of writes at listed addresses keeps the addresses strictly rising. -/
theorem scrambleAt_pairwise (n : Nat) (as : List Nat) (m : List Host.Cell) (hm : m.Pairwise (fun c d => c.1 < d.1)) :
    (scrambleAt n m as).Pairwise (fun c d => c.1 < d.1) := by
  induction as generalizing m with
  | nil => exact hm
  | cons a as ih => exact ih _ (writeByte_pairwise m hm a _)

/-- A scramble of listed addresses: any value there, every other address as before. -/
theorem readByte_scrambleAt (n : Nat) (as : List Nat) (m : List Host.Cell) (hm : m.Pairwise (fun c d => c.1 < d.1))
    (b : Nat) : readByte (scrambleAt n m as) b = if b ∈ as then Config.freeByte n b else readByte m b := by
  induction as generalizing m with
  | nil => simp [scrambleAt]
  | cons a as ih =>
    have := ih (writeByte m a (Config.freeByte n a)) (writeByte_pairwise m hm a _)
    simp only [scrambleAt, List.foldl_cons] at this ⊢
    rw [this, readByte_writeByte m hm]
    by_cases h1 : b ∈ as <;> by_cases h2 : b = a <;> simp [h1, h2]

/-- A scramble leaves every unlisted address alone, in any memory. -/
theorem readByte_scrambleAt_other (n : Nat) (as : List Nat) (m : List Host.Cell) (b : Nat) (h : b ∉ as) :
    readByte (scrambleAt n m as) b = readByte m b := by
  induction as generalizing m with
  | nil => rfl
  | cons a as ih =>
    simp only [List.mem_cons, not_or] at h
    have := ih (writeByte m a (Config.freeByte n a)) h.2
    simp only [scrambleAt, List.foldl_cons] at this ⊢
    rw [this, readByte_writeByte_other _ _ _ _ h.1]

/-- A scramble of addresses inside the address space keeps the canonical form. -/
theorem scrambleAt_wf (n : Nat) (as : List Nat) (m : List Host.Cell) (hm : Memory.wf m)
    (ha : ∀ a ∈ as, a < Config.addrLimit) : Memory.wf (scrambleAt n m as) := by
  induction as generalizing m with
  | nil => exact hm
  | cons a as ih =>
    exact ih _ (writeByte_wf m hm a _ (ha a (by simp))) fun b hb => ha b (by simp [hb])

/-- A scrambled range is a scramble of its addresses. -/
theorem scrambleRange_eq (n : Nat) (m : List Host.Cell) (base len : Nat) :
    scrambleRange n m base len = scrambleAt n m ((List.range len).map fun k => base + k) := by
  simp [scrambleRange, scrambleAt, List.foldl_map]

/-- A scrambled range: any value inside, every other address as before. -/
theorem readByte_scrambleRange (n : Nat) (m : List Host.Cell) (hm : m.Pairwise (fun c d => c.1 < d.1))
    (base len b : Nat) :
    readByte (scrambleRange n m base len) b = if base ≤ b ∧ b < base + len then Config.freeByte n b else readByte m b := by
  rw [scrambleRange_eq, readByte_scrambleAt n _ m hm]
  refine if_congr ?_ rfl rfl
  simp only [List.mem_map, List.mem_range]
  constructor
  · rintro ⟨k, hk, rfl⟩
    omega
  · intro h
    exact ⟨b - base, by omega, by omega⟩

/-- A scrambled range leaves every address outside it alone, in any memory. -/
theorem readByte_scrambleRange_other (n : Nat) (m : List Host.Cell) (base len b : Nat)
    (h : ¬(base ≤ b ∧ b < base + len)) : readByte (scrambleRange n m base len) b = readByte m b := by
  rw [scrambleRange_eq]
  refine readByte_scrambleAt_other n _ m b fun hb => h ?_
  simp only [List.mem_map, List.mem_range] at hb
  obtain ⟨k, hk, rfl⟩ := hb
  omega

theorem scrambleRange_pairwise (n : Nat) (m : List Host.Cell) (hm : m.Pairwise (fun c d => c.1 < d.1)) (base len : Nat) :
    (scrambleRange n m base len).Pairwise (fun c d => c.1 < d.1) := by
  rw [scrambleRange_eq]
  exact scrambleAt_pairwise n _ m hm

theorem scrambleRange_wf (n : Nat) (m : List Host.Cell) (hm : Memory.wf m) (base len : Nat)
    (h : base + len ≤ Config.addrLimit) : Memory.wf (scrambleRange n m base len) := by
  rw [scrambleRange_eq]
  refine scrambleAt_wf n _ m hm fun a ha => ?_
  simp only [List.mem_map, List.mem_range] at ha
  obtain ⟨k, hk, rfl⟩ := ha
  omega

end Sys2Proof.Machine
end

