-- ==== Sys2Proof/Laws/Padding.lean ====
section
/-! SUPPORT. Lengths and bytes of the padding function. -/

namespace Sys2Proof.Machine

@[simp] theorem length_leBytes (v n : Nat) : (leBytes v n).length = n := by simp [leBytes]

@[simp] theorem length_beBytes (v n : Nat) : (beBytes v n).length = n := by simp [beBytes]

@[simp] theorem length_lengthField (g : Geom) (l : Nat) : (lengthField g l).length = fieldBytes g := by
  unfold lengthField
  split <;> simp

@[simp] theorem length_padBytes (g : Geom) (m : List Byte) : (padBytes g m).length = padLen g m.length := by
  simp [padBytes, padLen]
  omega

/-- The defining property of z (40_padding.md R106). -/
theorem zeroFill_spec (g : Geom) (l : Nat) :
    zeroFill g l < blockBytes g ∧ (l + 1 + zeroFill g l + fieldBytes g) % blockBytes g = 0 := by
  cases g <;> simp only [zeroFill, blockBytes, fieldBytes] <;> omega

/-- P is a multiple of B. -/
theorem padLen_mod (g : Geom) (l : Nat) : padLen g l % blockBytes g = 0 := (zeroFill_spec g l).2

/-- P for the 64-byte geometries (40_padding.md R107). -/
theorem padLen_p512 (l : Nat) : padLen .p512 l = (l + 72) / 64 * 64 := by
  simp only [padLen, zeroFill, blockBytes, fieldBytes]
  omega

/-- P for the 64-byte geometries (40_padding.md R107). -/
theorem padLen_p512le (l : Nat) : padLen .p512le l = (l + 72) / 64 * 64 := by
  simp only [padLen, zeroFill, blockBytes, fieldBytes]
  omega

/-- P for the 128-byte geometry (40_padding.md R107). -/
theorem padLen_p1024 (l : Nat) : padLen .p1024 l = (l + 144) / 128 * 128 := by
  simp only [padLen, zeroFill, blockBytes, fieldBytes]
  omega

/-- The message, the 0x80 byte and the field fit in P. -/
theorem lt_padLen (g : Geom) (l : Nat) : l + fieldBytes g < padLen g l := by
  simp only [padLen]
  omega

/-- The size check of a geometry with an 8-byte field (40_padding.md R110). -/
theorem sizeOverflows_iff (g : Geom) (l : Nat) :
    sizeOverflows g l = true ↔ if g = .p1024 then 2 ^ 125 ≤ l else 2 ^ 61 ≤ l := by
  cases g
  · rw [if_neg (by decide)]
    norm_num [sizeOverflows, fieldBytes]
    omega
  · rw [if_pos rfl]
    norm_num [sizeOverflows, fieldBytes]
    omega
  · rw [if_neg (by decide)]
    norm_num [sizeOverflows, fieldBytes]
    omega

end Sys2Proof.Machine
end

