-- ==== Sys2Proof/Laws/Ops.lean ====
section
/-! SUPPORT. For each shared operation, once, everything it can do. -/

namespace Sys2Proof.Machine

@[simp] theorem length_message (s : State) : (message s).length = msgLen s := by simp [message]

/-! ### The memory port -/

/-- A plan none of whose accesses errs is made whole. -/
theorem runPort_quiet (m : List ErrRegion) (l : List Access) (h : ∀ x ∈ l, errs m x = false) :
    runPort m l = (l, none) := by
  induction l with
  | nil => rfl
  | cons x l ih =>
    have := ih fun y hy => h y (by simp [hy])
    simp [runPort, h x (by simp), this]

/-- A plan is made up to and with its first access that errs. -/
theorem runPort_first (m : List ErrRegion) (before after : List Access) (x : Access)
    (hb : ∀ y ∈ before, errs m y = false) (hx : errs m x = true) :
    runPort m (before ++ x :: after) = (before ++ [x], some (accessAddr x)) := by
  induction before with
  | nil => simp [runPort, hx]
  | cons y before ih =>
    have := ih fun z hz => hb z (by simp [hz])
    simp [runPort, hb y (by simp), this]

/-- Either no access of a plan errs, or one is the first that does. -/
theorem runPort_cases (m : List ErrRegion) (l : List Access) :
    (∀ x ∈ l, errs m x = false) ∨
    ∃ before x after, l = before ++ x :: after ∧ (∀ y ∈ before, errs m y = false) ∧ errs m x = true := by
  induction l with
  | nil => exact .inl (by simp)
  | cons y l ih =>
    by_cases hy : errs m y = true
    · exact .inr ⟨[], y, l, rfl, by simp, hy⟩
    · rcases ih with h | ⟨before, x, after, rfl, hb, hx⟩
      · exact .inl (by simpa using ⟨by simpa using hy, h⟩)
      · refine .inr ⟨y :: before, x, after, rfl, ?_, hx⟩
        intro z hz
        rcases List.mem_cons.1 hz with rfl | hz
        · simpa using hy
        · exact hb z hz

/-! ### `runChecked` -/

/-- A command that fails a check. -/
theorem runChecked_failed (i : Instr) (work : State → State) (s : State) (e : CmdError)
    (h : checkOperands i s = some e) : runChecked i work s = complete i (some e) s := by
  simp [runChecked, h]

/-- A command that passes its checks and whose accesses all succeed. -/
theorem runChecked_quiet (i : Instr) (work : State → State) (s : State)
    (h : checkOperands i s = none) (hq : ∀ x ∈ portPlan i s, errs s.busMap x = false) :
    runChecked i work s = complete i none (work { s with port := s.port ++ portPlan i s }) := by
  simp [runChecked, h, runPort_quiet _ _ hq]

/-- A command that passes its checks and meets a bus error. -/
theorem runChecked_bus (i : Instr) (work : State → State) (s : State) (before after : List Access) (x : Access)
    (h : checkOperands i s = none) (hp : portPlan i s = before ++ x :: after)
    (hb : ∀ y ∈ before, errs s.busMap y = false) (hx : errs s.busMap x = true) :
    runChecked i work s =
      complete i (some (.bus (accessAddr x))) { s with port := s.port ++ (before ++ [x]) } := by
  simp [runChecked, h, hp, runPort_first _ _ _ _ hb hx]

/-- Everything `runChecked` can do. -/
theorem runChecked_cases (i : Instr) (work : State → State) (s : State) :
    (∃ e, checkOperands i s = some e ∧ runChecked i work s = complete i (some e) s) ∨
    (checkOperands i s = none ∧ (∀ x ∈ portPlan i s, errs s.busMap x = false) ∧
      runChecked i work s = complete i none (work { s with port := s.port ++ portPlan i s })) ∨
    (∃ before x after, checkOperands i s = none ∧ portPlan i s = before ++ x :: after ∧
      (∀ y ∈ before, errs s.busMap y = false) ∧ errs s.busMap x = true ∧
      runChecked i work s =
        complete i (some (.bus (accessAddr x))) { s with port := s.port ++ (before ++ [x]) }) := by
  cases hc : checkOperands i s with
  | some e => exact .inl ⟨e, rfl, runChecked_failed i work s e hc⟩
  | none =>
    rcases runPort_cases s.busMap (portPlan i s) with h | ⟨before, x, after, hp, hb, hx⟩
    · exact .inr (.inl ⟨rfl, h, runChecked_quiet i work s hc h⟩)
    · exact .inr (.inr ⟨before, x, after, rfl, hp, hb, hx, runChecked_bus i work s before after x hc hp hb hx⟩)

/-- The checks fail only with SIZE or ADDR. -/
theorem checkOperands_some (i : Instr) (s : State) (e : CmdError) (h : checkOperands i s = some e) :
    e = .size ∨ e = .addr := by
  unfold checkOperands at h
  split at h
  · simp at h
  · split at h
    · simp_all
    · split at h <;> simp_all

/-- A command whose checks pass has its ranges inside the address space. -/
theorem checkOperands_none (i : Instr) (s : State) (h : checkOperands i s = none) (hg : geomOf i ≠ none) :
    srcBase s + msgLen s ≤ Config.addrLimit ∧ dstBase s + outBytes i s ≤ Config.addrLimit := by
  unfold checkOperands at h
  split at h
  · contradiction
  · split at h
    · simp at h
    · split at h
      · simp at h
      · simp only [rangeFails] at *
        simp_all

/-- The operands do not depend on the port record. -/
@[simp] theorem checkOperands_port (i : Instr) (s : State) (l : List Access) :
    checkOperands i { s with port := l } = checkOperands i s := rfl

/-- The checks depend on the latched operands alone. -/
theorem checkOperands_congr (i : Instr) (a b : State) (hs : a.eng.src = b.eng.src) (hl : a.eng.len = b.eng.len)
    (hd : a.eng.dst = b.eng.dst) : checkOperands i a = checkOperands i b := by
  simp only [checkOperands, rangeFails, msgLen, srcBase, dstBase, outBytes, paddedLen, hs, hl, hd]
  rfl

/-! ### The ranges inside the address space -/

theorem destBytes_le (i : Instr) (s : State) : destBytes i s ≤ outBytes i s := by
  unfold destBytes
  omega

theorem sourceBytes_le (s : State) : sourceBytes s ≤ msgLen s := by
  unfold sourceBytes
  omega

/-- No byte of the destination range lies outside the address space. -/
theorem destBytes_limit (i : Instr) (s : State) : dstBase s + destBytes i s ≤ Config.addrLimit := by
  have : dstBase s < Config.addrLimit := s.eng.dst.isLt
  unfold destBytes
  omega

/-- No byte of the source range lies outside the address space. -/
theorem sourceBytes_limit (s : State) : srcBase s + sourceBytes s ≤ Config.addrLimit := by
  have : srcBase s < Config.addrLimit := s.eng.src.isLt
  unfold sourceBytes
  omega

/-- A command that passes its checks has its whole destination range inside the address space. -/
theorem destBytes_checked (i : Instr) (s : State) (h : checkOperands i s = none) : destBytes i s = outBytes i s := by
  by_cases hg : geomOf i = none
  · have : outBytes i s = 0 := by cases i <;> simp_all [geomOf, outBytes]
    simp [destBytes, this]
  · have := checkOperands_none i s h hg
    unfold destBytes
    omega

/-! ### Memory at completion -/

/-- No scramble of a command's output touches a byte outside its ranges. -/
theorem readByte_scrambleOutput_other (i : Instr) (s : State) (a : Nat)
    (hd : ¬(dstBase s ≤ a ∧ a < dstBase s + outBytes i s))
    (hs : padOverlaps i s = true → ¬(srcBase s ≤ a ∧ a < srcBase s + msgLen s)) :
    readByte (scrambleOutput i s) a = readByte s.mem a := by
  have h1 := destBytes_le i s
  have h2 := sourceBytes_le s
  simp only [scrambleOutput]
  split
  · have := hs ‹_›
    rw [readByte_scrambleRange_other _ _ _ _ _ (by omega), readByte_scrambleRange_other _ _ _ _ _ (by omega)]
  · rw [readByte_scrambleRange_other _ _ _ _ _ (by omega)]

/-- A destination race leaves every byte alone that no other agent wrote, or that lies outside the destination range. -/
theorem readByte_scrambleRaced_other (i : Instr) (s : State) (a : Nat)
    (h : ¬(a ∈ s.raced ∧ dstBase s ≤ a ∧ a < dstBase s + destBytes i s)) :
    readByte (scrambleRaced i s).mem a = readByte s.mem a := by
  refine readByte_scrambleAt_other _ _ _ _ fun hm => h ?_
  simpa [inRange] using hm

/-- Completion leaves every byte outside the command's ranges alone. -/
theorem readByte_complete_other (i : Instr) (r : Option CmdError) (s : State) (a : Nat)
    (hd : ¬(dstBase s ≤ a ∧ a < dstBase s + outBytes i s))
    (hs : padOverlaps i s = true → ¬(srcBase s ≤ a ∧ a < srcBase s + msgLen s)) :
    readByte (complete i r s).mem a = readByte s.mem a := by
  have h1 := destBytes_le i s
  have hr : readByte (scrambleRaced i s).mem a = readByte s.mem a :=
    readByte_scrambleRaced_other i s a (by omega)
  rw [complete_mem]
  rcases r with _ | e
  · simp only [unsettle]
    split
    · exact readByte_scrambleOutput_other i s a hd hs
    · exact hr
  · cases e
    · rw [unsettle_size, hr]
    · rw [unsettle_cmd]
    · rw [unsettle_addr, hr]
    · exact readByte_scrambleOutput_other i s a hd hs

/-- Without a race nothing is scrambled for one. -/
theorem scrambleRaced_quiet (i : Instr) (s : State) (hr : s.raced = []) : scrambleRaced i s = s := by
  cases s
  simp only at hr
  subst hr
  rfl

/-- Without an overlap or a race, a success leaves memory as the command wrote it. -/
theorem complete_ok_mem (i : Instr) (s : State) (ho : padOverlaps i s = false) (hr : s.raced = []) :
    (complete i none s).mem = s.mem := by
  simp [unsettle, ho, scrambleRaced_quiet i s hr]

/-- Scrambling a command's output keeps the canonical form, whatever its operands. -/
theorem scrambleOutput_wf (i : Instr) (s : State) (h : Memory.wf s.mem) : Memory.wf (scrambleOutput i s) := by
  have h1 := scrambleRange_wf s.free s.mem h (dstBase s) (destBytes i s) (destBytes_limit i s)
  simp only [scrambleOutput]
  split
  · exact scrambleRange_wf _ _ h1 _ _ (sourceBytes_limit s)
  · exact h1

/-- A destination race keeps the canonical form. -/
theorem scrambleRaced_wf (i : Instr) (s : State) (h : Memory.wf s.mem) : Memory.wf (scrambleRaced i s).mem := by
  refine scrambleAt_wf _ _ _ h fun a ha => ?_
  have ha := (List.mem_filter.1 ha).2
  have := destBytes_limit i s
  simp only [inRange, decide_eq_true_eq] at ha
  omega

/-- Completion keeps memory's canonical form, whatever the operands and the result. -/
theorem complete_wf (i : Instr) (r : Option CmdError) (s : State) (h : Memory.wf s.mem) :
    Memory.wf (complete i r s).mem := by
  rw [complete_mem]
  rcases r with _ | e
  · simp only [unsettle]
    split
    · exact scrambleOutput_wf i s h
    · exact scrambleRaced_wf i s h
  · cases e
    · exact scrambleRaced_wf i s h
    · exact h
    · exact scrambleRaced_wf i s h
    · exact scrambleOutput_wf i s h

/-! ### Races settled at completion -/

@[simp] theorem length_racedMessage (s : State) : (racedMessage s).length = msgLen s := by simp [racedMessage]

/-- A command whose source no other agent wrote settles nothing. -/
theorem settleRaces_quiet (i : Instr) (s : State) (h : sourceRaced s = false) : settleRaces i s = s := by
  simp [settleRaces, h]

/-- A command that failed settles nothing. -/
theorem settleRaces_failed (i : Instr) (s : State) (h : s.eng.result ≠ none) : settleRaces i s = s := by
  cases hr : s.eng.result with
  | none => contradiction
  | some e => simp [settleRaces, hr]

/-- A digest has as many bytes as its HASH writes. -/
theorem length_sha1DigestBytes (h : Sha1State) (le : Bool) : (sha1DigestBytes h le).length = 20 := by
  have : ∀ w, (sha1WordBytes le w).length = 4 := fun w => by cases le <;> simp [sha1WordBytes]
  simp [sha1DigestBytes, this]

/-- The output of a command that passes its checks keeps memory's canonical form, whatever the message's bytes. -/
theorem outputOf_wf (i : Instr) (m : List Byte) (s : State) (h : Memory.wf s.mem) (hc : checkOperands i s = none)
    (hm : m.length = msgLen s) : Memory.wf (outputOf i m s).mem := by
  by_cases hg : geomOf i = none
  · cases i <;> simp_all only [geomOf, outputOf, reduceCtorEq] <;> exact h
  · have hd := (checkOperands_none i s hc hg).2
    cases i <;> simp only [geomOf, not_true_eq_false, reduceCtorEq, not_false_eq_true] at hg
    all_goals
      refine writeBytes_wf _ s.mem h _ (Nat.le_trans (Nat.le_of_eq ?_) hd)
      simp [outBytes, paddedLen, geomOf, hm, md5DigestBytes, length_sha1DigestBytes]

/-- Settling races keeps memory's canonical form, for a command that passes its checks. -/
theorem settleRaces_wf (i : Instr) (s : State) (h : Memory.wf s.mem)
    (hc : s.eng.result = none → checkOperands i s = none) : Memory.wf (settleRaces i s).mem := by
  unfold settleRaces
  split
  · rename_i hr
    simp only [Bool.and_eq_true, Option.isNone_iff_eq_none] at hr
    exact outputOf_wf i _ s h (hc hr.1) (length_racedMessage s)
  · exact h

end Sys2Proof.Machine
end

