-- ==== Sys2Proof/Laws/PerInstr.lean ====
section
/-! SUPPORT. A family of facts about the commands as syntax, one lemma for each constructor of Instr. -/

namespace Sys2Proof.Laws

/-- A command's word splits into that command's fields, and they are legal (30_encoding.md R86, R89). -/
def EncodedFields.Statement (i : Instr) : Prop := cmdFields (encode i) = i.fields ∧ i.fields.wf = true

theorem EncodedFields.nop : EncodedFields.Statement .nop := by unfold EncodedFields.Statement; decide
theorem EncodedFields.initMd5 : EncodedFields.Statement .initMd5 := by unfold EncodedFields.Statement; decide
theorem EncodedFields.initSha1 : EncodedFields.Statement .initSha1 := by unfold EncodedFields.Statement; decide
theorem EncodedFields.compressMd5 : EncodedFields.Statement .compressMd5 := by unfold EncodedFields.Statement; decide
theorem EncodedFields.compressSha1 : EncodedFields.Statement .compressSha1 := by unfold EncodedFields.Statement; decide
theorem EncodedFields.hashMd5 : EncodedFields.Statement .hashMd5 := by unfold EncodedFields.Statement; decide
theorem EncodedFields.hashSha1 : EncodedFields.Statement .hashSha1 := by unfold EncodedFields.Statement; decide
theorem EncodedFields.padP512 : EncodedFields.Statement .padP512 := by unfold EncodedFields.Statement; decide
theorem EncodedFields.padP1024 : EncodedFields.Statement .padP1024 := by unfold EncodedFields.Statement; decide
theorem EncodedFields.padP512le : EncodedFields.Statement .padP512le := by unfold EncodedFields.Statement; decide

end Sys2Proof.Laws
end

