-- ==== Sys2Proof/Tests/Slice0.lean ====
section
/-! SUPPORT. Tests: the checks of a command word, the decoder on words written out from 30_encoding.md R86 and R89, one
step on small states against 95_test_vectors.md, and for each statement a state that meets its hypotheses. -/

namespace Sys2Proof.Tests

open Sys2Proof Sys2Proof.Machine

/-! ### Well-formedness: an ill-formed term for each check -/

theorem test_wf_rsvd_refused : CmdFields.wf { op := 3, sel := 0, rsvd := 1 } = false := by decide
theorem test_wf_op_refused : CmdFields.wf { op := 5, sel := 0, rsvd := 0 } = false := by decide
theorem test_wf_nop_sel_refused : CmdFields.wf { op := 0, sel := 1, rsvd := 0 } = false := by decide
theorem test_wf_alg_refused : CmdFields.wf { op := 1, sel := 2, rsvd := 0 } = false := by decide
theorem test_wf_geom_refused : CmdFields.wf { op := 4, sel := 3, rsvd := 0 } = false := by decide
theorem test_wf_all_commands : ∀ i ∈ Instr.all, i.fields.wf = true := by decide

/-! ### Decoding: each word as its fields stand, bits 31:6, then SEL, then OP -/

theorem test_decode_nop : decode 0b00000000000000000000000000_00_0000 = .ok .nop := by decide
theorem test_decode_initMd5 : decode 0b00000000000000000000000000_00_0001 = .ok .initMd5 := by decide
theorem test_decode_initSha1 : decode 0b00000000000000000000000000_01_0001 = .ok .initSha1 := by decide
theorem test_decode_compressMd5 : decode 0b00000000000000000000000000_00_0010 = .ok .compressMd5 := by decide
theorem test_decode_compressSha1 : decode 0b00000000000000000000000000_01_0010 = .ok .compressSha1 := by decide
theorem test_decode_hashMd5 : decode 0b00000000000000000000000000_00_0011 = .ok .hashMd5 := by decide
theorem test_decode_hashSha1 : decode 0b00000000000000000000000000_01_0011 = .ok .hashSha1 := by decide
theorem test_decode_padP512 : decode 0b00000000000000000000000000_00_0100 = .ok .padP512 := by decide
theorem test_decode_padP1024 : decode 0b00000000000000000000000000_01_0100 = .ok .padP1024 := by decide
theorem test_decode_padP512le : decode 0b00000000000000000000000000_10_0100 = .ok .padP512le := by decide

/-- T-ENC-1's illegal words, each by name. -/
theorem test_decode_illegal :
    decode 0x00000010 = .error .nopSelect ∧ decode 0x00000021 = .error .reservedAlgorithm ∧
    decode 0x00000031 = .error .reservedAlgorithm ∧ decode 0x00000034 = .error .reservedGeometry ∧
    decode 0x00000005 = .error .reservedOperation ∧ decode 0x0000000F = .error .reservedOperation ∧
    decode 0x00000040 = .error .reservedBits ∧ decode 0x80000003 = .error .reservedBits ∧
    decode 0xFFFFFFFF = .error .reservedBits := by decide

theorem test_decodeTableWord :
    decodeTableWord 32 0x24 = some .padP512le ∧ decodeTableWord 8 0x13 = some .hashSha1 ∧
    decodeTableWord 32 0x25 = none := by decide

theorem test_assemble : assemble "HASH.SHA1" = some .hashSha1 ∧ ∀ i ∈ Instr.all, assemble i.mnemonic = some i := by decide

/-! ### Small states -/

/-- The bytes of "abc" at 0x1000. -/
def abcMem : List Host.Cell := [(0x1000, 0x61), (0x1001, 0x62), (0x1002, 0x63)]

/-- Reset, with "abc" at 0x1000 and the operands set. -/
def idleAt (dst : Word64) : State := { State.reset with mem := abcMem, src := 0x1000, len := 3, dst := dst }

/-- The same, with a command just accepted. -/
def ready (i : Instr) (dst : Word64) : State := accept (encode i) (idleAt dst)

/-- Idle with host inputs pending. -/
def withAgenda (s : State) (es : List Event) : State := { s with agenda := es }

/-- The state a step answers. -/
def stepState (s : State) : State :=
  match step s with
  | .next t => t
  | .fault _ => s
  | .refused _ => s

/-- `n` bytes of system memory from `a` up. -/
def bytesAt (s : State) (a n : Nat) : List Byte := (List.range n).map fun k => readByte s.mem (a + k)

/-! ### One step of each command against 95_test_vectors.md -/

/-- P3's outcome of NOP's kind: STATUS = 0x02, OUTLEN = 0 (43_control.md R200). -/
theorem test_nop :
    (statusWord (stepState (accept 0 State.reset)).status, (stepState (accept 0 State.reset)).outlen) = (0x02, 0) := by
  decide +kernel

/-- T-ENC-1: an illegal word gives STATUS = 0x26. -/
theorem test_illegal : statusWord (stepState (accept 0x00000005 State.reset)).status = 0x26 := by decide +kernel

/-- 41_md5.md R146's example, and T-HAZ-4's H4. -/
theorem test_initMd5 :
    md5H4 (stepState (accept 0x01 State.reset)) = ⟨0x67452301, 0xEFCDAB89, 0x98BADCFE, 0x10325476⟩ ∧
    (stepState (accept 0x01 { State.reset with h4 := 0xC3D2E1F0 })).h4 = 0xC3D2E1F0 := by decide +kernel

/-- 42_sha1.md R180's example. -/
theorem test_initSha1 : (stepState (accept 0x11 State.reset)).h4 = 0xC3D2E1F0 := by decide +kernel

/-- T-MD5-C2 and T-RST-2: COMPRESS.MD5 right after reset. -/
theorem test_compressMd5_zero :
    md5H4 (stepState (accept 0x02 State.reset)) = ⟨0xF7CD1C97, 0xA5483681, 0x2B68D832, 0xF90CA639⟩ ∧
    (stepState (accept 0x02 State.reset)).blkcnt = 1 := by decide +kernel

/-- T-MD5-C3: every bit set, so every addition carries. -/
theorem test_compressMd5_ones :
    md5H4 (stepState (accept 0x02 { State.reset with
      h0 := 0xFFFFFFFF, h1 := 0xFFFFFFFF, h2 := 0xFFFFFFFF, h3 := 0xFFFFFFFF, blk := Vector.replicate 64 0xFF })) =
      ⟨0x6CBA9129, 0x29FFD12A, 0x8B9BB7D3, 0xA9A0A3C1⟩ := by decide +kernel

/-- T-SHA-C2. -/
theorem test_compressSha1_zero :
    sha1H5 (stepState (accept 0x12 State.reset)) = ⟨0x9E1547ED, 0x57EC91C2, 0x30FA8BC8, 0xC7785A54, 0xA7EFA5E3⟩ := by
  decide +kernel

/-- T-SHA-C4: the block of "abc" from the IV, written through BLKW0 and BLKW15 as P2 writes it. -/
theorem test_compressSha1_abc :
    sha1H5 (stepState (accept 0x12 (writeReg (.blkw 15) 0x18000000 (writeReg (.blkw 0) 0x80636261
      (setSha1 sha1Iv State.reset))))) =
      ⟨0xA9993E36, 0x4706816A, 0xBA3E2571, 0x7850C26C, 0x9CD0D89D⟩ := by decide +kernel

/-- P1: the digest, BLKCNT and the last padded block of HASH.MD5 of "abc". -/
theorem test_hashMd5_abc :
    bytesAt (stepState (ready .hashMd5 0x2000)) 0x2000 16 =
      [0x90, 0x01, 0x50, 0x98, 0x3c, 0xd2, 0x4f, 0xb0, 0xd6, 0x96, 0x3f, 0x7d, 0x28, 0xe1, 0x7f, 0x72] ∧
    (stepState (ready .hashMd5 0x2000)).blkcnt = 1 ∧
    readBlkw (stepState (ready .hashMd5 0x2000)).blk 14 = 0x00000018 := by decide +kernel

/-- T-HAZ-2's kind: the digest of HASH.MD5 over its own source is right. -/
theorem test_hashMd5_over_source :
    bytesAt (stepState (ready .hashMd5 0x1000)) 0x1000 4 = [0x90, 0x01, 0x50, 0x98] := by decide +kernel

/-- T-SRC-1: HASH.SHA1 of "abc", SHA1_LE = 0. -/
theorem test_hashSha1_abc :
    bytesAt (stepState (ready .hashSha1 0x2000)) 0x2000 20 =
      [0xa9, 0x99, 0x3e, 0x36, 0x47, 0x06, 0x81, 0x6a, 0xba, 0x3e, 0x25, 0x71, 0x78, 0x50, 0xc2, 0x6c,
       0x9c, 0xd0, 0xd8, 0x9d] := by decide +kernel

/-- P5: the little-endian digest form. -/
theorem test_hashSha1_le :
    bytesAt (stepState (accept 0x13 { idleAt 0x2000 with ctrl := { sha1Le := true, ie := true } })) 0x2000 20 =
      [0x36, 0x3e, 0x99, 0xa9, 0x6a, 0x81, 0x06, 0x47, 0x71, 0x25, 0x3e, 0xba, 0x6c, 0xc2, 0x50, 0x78,
       0x9d, 0xd8, 0xd0, 0x9c] := by decide +kernel

/-- T-PAD-3, P512, and OUTLEN = 64. -/
theorem test_padP512 :
    bytesAt (stepState (ready .padP512 0x3000)) 0x3000 64 =
      [0x61, 0x62, 0x63, 0x80] ++ List.replicate 52 0 ++ [0, 0, 0, 0, 0, 0, 0, 0x18] ∧
    (stepState (ready .padP512 0x3000)).outlen = 64 := by decide +kernel

/-- The memory map of T-ERR-1's last row: writes to 0x3002 err. -/
def errAt3002 : List ErrRegion := [{ lo := 0x3002, hi := 0x3002, onRead := false, onWrite := true }]

/-- T-ERR-1, last row: STATUS = 0x46, ERRADDR, and the sixth access is the failing one. -/
theorem test_padP512_bus :
    statusWord (stepState { ready .padP512 0x3000 with busMap := errAt3002 }).status = 0x46 ∧
    (stepState { ready .padP512 0x3000 with busMap := errAt3002 }).erraddr = 0x3002 ∧
    (stepState { ready .padP512 0x3000 with busMap := errAt3002 }).port =
      [.read 0x1000, .write 0x3000, .read 0x1001, .write 0x3001, .read 0x1002, .write 0x3002] := by decide +kernel

/-- T-PAD-3, P1024. -/
theorem test_padP1024 :
    bytesAt (stepState (ready .padP1024 0x3000)) 0x3000 128 =
      [0x61, 0x62, 0x63, 0x80] ++ List.replicate 123 0 ++ [0x18] := by decide +kernel

/-- T-ERR-1: PAD.P1024 with LEN = 2^61 near the top fails ADDR, never SIZE. -/
theorem test_padP1024_addr :
    statusWord (stepState (accept 0x14 { State.reset with
      len := 0x2000000000000000, dst := 0xFFFFFFFFFFFFFFF0 })).status = 0x36 := by decide +kernel

/-- T-PAD-3, P512LE. -/
theorem test_padP512le :
    bytesAt (stepState (ready .padP512le 0x3000)) 0x3000 64 =
      [0x61, 0x62, 0x63, 0x80] ++ List.replicate 52 0 ++ [0x18, 0, 0, 0, 0, 0, 0, 0] := by decide +kernel

/-- T-ERR-1: SIZE comes before ADDR. -/
theorem test_padP512le_size :
    statusWord (stepState (accept 0x24 { State.reset with
      src := 0xFFFFFFFFFFFFFFFF, len := 0x2000000000000000 })).status = 0x16 := by decide +kernel

/-! ### The functions (T-MD5-F, T-MD5-R, T-SHA-F, T-SHA-W) -/

theorem test_md5_functions :
    md5F 0x0F0F0F0F 0x33333333 0x55555555 = 0x53535353 ∧ md5G 0x0F0F0F0F 0x33333333 0x55555555 = 0x27272727 ∧
    md5H 0x0F0F0F0F 0x33333333 0x55555555 = 0x69696969 ∧ md5I 0x0F0F0F0F 0x33333333 0x55555555 = 0x9C9C9C9C ∧
    rol32 0x12345678 7 = 0x1A2B3C09 ∧ md5K 63 = 0xEB86D391 ∧ (md5Idx 31, md5Shift 31) = (12, 20) := by decide +kernel

theorem test_sha1_functions :
    sha1BandFn 45 0x0F0F0F0F 0x33333333 0x55555555 = 0x17171717 ∧ sha1BandK 60 = 0xCA62C1D6 ∧
    rol32 0x80000001 30 = 0x60000000 ∧
    scheduleWord (sha1Schedule (Vector.replicate 64 0xFF)) 19 = 0xFFFFFFFF := by decide +kernel

/-- T-PAD-1 and T-PAD-2 at their boundaries. -/
theorem test_padLen :
    (zeroFill .p512 55, padLen .p512 55) = (0, 64) ∧ (zeroFill .p512 56, padLen .p512 56) = (63, 128) ∧
    (zeroFill .p1024 111, padLen .p1024 111) = (0, 128) ∧ (zeroFill .p1024 112, padLen .p1024 112) = (127, 256) := by
  decide

/-! ### Host transactions (T-CTL-1, P6) -/

/-- T-CTL-1: CTRL reads back two bits; an offset no register has reads 0. -/
theorem test_ctrl_readback :
    (stepState (withAgenda (writeReg .ctrl 0xFFFFFFFF State.reset) [hostRD .ctrl])).replies = [.word 3] ∧
    (stepState (withAgenda State.reset [.rd 4 0x0D4])).replies = [.word 0] := by decide +kernel

/-- T-CTL-1: clearing ERR also clears ERRCODE. -/
theorem test_clear_err :
    statusWord (writeReg .status 0x4 { State.reset with status := ⟨false, true, true, false, 2⟩ }).status = 0x02 := by
  decide +kernel

/-- P6, outcome A: a NOP word while a HASH runs sets OVR and nothing else. -/
theorem test_overrun :
    statusWord (stepState (withAgenda (ready .hashMd5 0x2000) [hostWR .cmd 0])).status = 0x09 := by decide +kernel

/-! ### Hazards (70_reset_and_hazards.md R241, R245, R246) -/

/-- R245, U9: a source byte another agent wrote after the engine had read it is any value all the same; the others are what
the engine read. -/
theorem test_late_race :
    racedMessage { ready .padP512 0x3000 with raced := [0x1000], got := [0x61, 0x62, 0x63] } =
      [Config.freeRead 0 0x1000, 0x62, 0x63] := by rfl

/-- R241, R246: a HASH that will fail SIZE has its 16 destination bytes while it runs, cut at the top of memory; a host read
of one of them draws a free value. -/
theorem test_failing_destination :
    runningCommand (accept 3 { State.reset with len := 0x2000000000000000 }) = some .hashMd5 ∧
    destBytes .hashMd5 (accept 3 { State.reset with dst := 0xFFFFFFFFFFFFFFFE }) = 2 ∧
    (hostMemRead 15 (accept 3 { State.reset with len := 0x2000000000000000 })).free = 1 ∧
    (hostMemRead 16 (accept 3 { State.reset with len := 0x2000000000000000 })).free = 0 := by decide +kernel

/-- R97, log 23: a WAIT taken while reset is held either ends with a poll's reply or stays pending, and either way one value
is drawn. -/
theorem test_wait_in_reset : (hostPoll [] { State.reset with rst := true, agenda := [.wait] }).free = 1 := by
  simp only [hostPoll]
  split <;> rfl

/-- withFetchWord: the very next step runs the word. -/
theorem test_withFetchWord : (stepState (State.reset.withFetchWord 32 0x11)).h4 = 0xC3D2E1F0 := by decide +kernel

/-! ### Witnesses: for each statement with hypotheses, states and operands that meet them together -/

/-- "abc" elsewhere, for a second state with the same message. -/
def readyFar (i : Instr) : State :=
  accept (encode i) { State.reset with
    mem := [(0x7000, 0x61), (0x7001, 0x62), (0x7002, 0x63)], src := 0x7000, len := 3, dst := 0x9000, h0 := 7 }

/-- A HASH about to complete, its source raced after it was read. -/
def lateRace (i : Instr) : State :=
  { ready i 0x2000 with phase := .complete, raced := [0x1002], got := [0x61, 0x62, 0x63] }

/-- HASH.MD5 in its first block, at step 63. -/
def midHash : State :=
  let s := ready .hashMd5 0x2000
  { s with phase := .step, eng := { s.eng with p := 64, q := 64, t := 63, k := 0 } }

theorem outputPossible_ready (i : Instr) (n : Nat) (h : n ≤ 256) : OutputPossible n (ready i 0x2000) :=
  ⟨show 0x1000 + 3 ≤ 2 ^ 64 by decide, show 0x2000 + n ≤ 2 ^ 64 by omega,
    fun _ _ => rfl, fun _ _ => rfl, rfl, by show Memory.wf abcMem; decide⟩

theorem test_witness_decodeInvertsEncode : decode 0x24 = .ok .padP512le ∧ (0x24 : Word) = encode .padP512le := by decide

theorem test_witness_illegalWords : (∃ e, decode 5 = .error e) ∧ (∃ e, decode 0x21 = .error e) ∧
    (∃ e, decode 0x34 = .error e) ∧ (∃ e, decode 0x10 = .error e) ∧ (∃ e, decode 0x40 = .error e) :=
  ⟨⟨_, rfl⟩, ⟨_, rfl⟩, ⟨_, rfl⟩, ⟨_, rfl⟩, ⟨_, rfl⟩⟩

theorem accepted_ready (i : Instr) (d : Word64) : Accepted (ready i d) i := ⟨rfl, by cases i <;> (show decode (encode _) = _; decide)⟩

theorem test_witness_stepRunsTheDecodedInstruction :
    Accepted (ready .hashMd5 0x2000) .hashMd5 ∧ (ready .hashMd5 0x2000).agenda = [] ∧
    Accepted (withAgenda (ready .nop 0) [.wait]) .nop ∧ (withAgenda (ready .nop 0) [.wait]).agenda = [.wait] ∧
    (withAgenda (ready .nop 0) [.wait]).status.busy = true :=
  ⟨accepted_ready _ _, rfl, accepted_ready _ _, rfl, rfl⟩

/-- CmdWriteIsAccepted (idle) and CmdWriteWhileBusyIsDropped (busy). -/
theorem test_witness_cmdWrite :
    ((withAgenda (idleAt 0x2000) [hostWR .cmd 3]).agenda = hostWR .cmd 3 :: [] ∧
      (withAgenda (idleAt 0x2000) [hostWR .cmd 3]).rst = false ∧
      (withAgenda (idleAt 0x2000) [hostWR .cmd 3]).status.busy = false) ∧
    ((withAgenda (ready .nop 0) [hostWR .cmd 3]).agenda = hostWR .cmd 3 :: [] ∧
      (withAgenda (ready .nop 0) [hostWR .cmd 3]).rst = false ∧
      (withAgenda (ready .nop 0) [hostWR .cmd 3]).status.busy = true) :=
  ⟨⟨rfl, rfl, rfl⟩, ⟨rfl, rfl, rfl⟩⟩

theorem test_witness_illegalCommandCompletes :
    (accept 5 State.reset).agenda = [] ∧ (accept 5 State.reset).phase = .check ∧
    decode (accept 5 State.reset).eng.cmdword = .error .reservedOperation := ⟨rfl, rfl, by decide⟩

/-- `exec` answers a next state: the hypothesis of OutlenCountsTheOutput, ErrAddrOnlyByBus, WritesStayInTheDestination,
CtrlDoesNotReachTheRunningCommand, PadAndNopLeaveTheHashRegisters, Md5IgnoresH4AndSha1Le, RaceKeepsTheOutcome and
IrqFollowsDone; with STATUS.ERR = 0, an overlap and its absence. -/
theorem test_witness_exec :
    exec .padP512 (ready .padP512 0x3000) = .next (runChecked .padP512 (padWork .p512) (ready .padP512 0x3000)) ∧
    (ready .padP512 0x3000).status.err = false ∧ padOverlaps .padP512 (ready .padP512 0x3000) = false ∧
    padOverlaps .padP512 (ready .padP512 0x1001) = true ∧ algOf .padP512 = none ∧ algOf .nop = none ∧
    algOf .initMd5 = some .md5 ∧ algOf .hashMd5 = some .md5 ∧
    exec .hashMd5 (ready .hashMd5 0x2000) = .next (runChecked .hashMd5 hashMd5Work (ready .hashMd5 0x2000)) :=
  ⟨rfl, rfl, by decide, by decide, rfl, rfl, rfl, rfl, rfl⟩

/-- Both outcomes of OutlenCountsTheOutput: a command that succeeds and one that fails. -/
theorem test_witness_outlen :
    (stepState (ready .padP512 0x3000)).status.err = false ∧
    (stepState { ready .padP512 0x3000 with busMap := errAt3002 }).status.err = true := by decide +kernel

theorem test_witness_hashMd5 : msgLen (ready .hashMd5 0x2000) < 2 ^ 61 ∧ OutputPossible 16 (ready .hashMd5 0x2000) :=
  ⟨by decide, outputPossible_ready _ _ (by decide)⟩

theorem test_witness_hashSha1 : msgLen (ready .hashSha1 0x2000) < 2 ^ 61 ∧ OutputPossible 20 (ready .hashSha1 0x2000) :=
  ⟨by decide, outputPossible_ready _ _ (by decide)⟩

theorem test_witness_hashIsDeterministic :
    storedMessage (ready .hashMd5 0x2000) = storedMessage (readyFar .hashMd5) ∧ msgLen (ready .hashMd5 0x2000) < 2 ^ 61 ∧
    OutputPossible 20 (ready .hashMd5 0x2000) ∧ OutputPossible 20 (readyFar .hashMd5) ∧
    OutputPossible 16 (readyFar .hashMd5) ∧
    (ready .hashMd5 0x2000).eng.sha1Le = (readyFar .hashMd5).eng.sha1Le :=
  ⟨by decide, by decide, outputPossible_ready _ _ (by decide),
    ⟨by decide, by decide, fun _ _ => rfl, fun _ _ => rfl, rfl, by show Memory.wf [_, _, _]; decide⟩,
    ⟨by decide, by decide, fun _ _ => rfl, fun _ _ => rfl, rfl, by show Memory.wf [_, _, _]; decide⟩, rfl⟩

/-- PadResult: no overlap, and the empty message; PadOverlapOutcome: an overlap. -/
theorem test_witness_pad :
    (msgLen (ready .padP1024 0x2000) < 2 ^ 61 ∧ padLen .p1024 (msgLen (ready .padP1024 0x2000)) ≤ 2 ^ 64 - 1 ∧
      OutputPossible (padLen .p1024 (msgLen (ready .padP1024 0x2000))) (ready .padP1024 0x2000) ∧
      srcBase (ready .padP1024 0x2000) + msgLen (ready .padP1024 0x2000) ≤ dstBase (ready .padP1024 0x2000)) ∧
    (msgLen (accept 4 State.reset) = 0 ∧ padLen .p512 (msgLen (accept 4 State.reset)) ≤ 2 ^ 64 - 1 ∧
      OutputPossible (padLen .p512 (msgLen (accept 4 State.reset))) (accept 4 State.reset)) ∧
    (OutputPossible (padLen .p512 (msgLen (ready .padP512 0x1001))) (ready .padP512 0x1001) ∧
      padOverlaps (.pad .p512) (ready .padP512 0x1001) = true) :=
  ⟨⟨by decide, by decide, outputPossible_ready _ _ (by decide), by decide⟩,
    ⟨by decide, by decide,
      ⟨by decide, by decide, fun _ _ => rfl, fun _ _ => rfl, rfl, by show Memory.wf []; decide⟩⟩,
    ⟨⟨by decide, by decide, fun _ _ => rfl, fun _ _ => rfl, rfl, by show Memory.wf abcMem; decide⟩, by decide⟩⟩

/-- SizeFailure at 2^61; AddrFailure by the source, by the destination, and by P of PAD.P1024 at DST = 0. -/
theorem test_witness_checks :
    2 ^ 61 ≤ msgLen (accept 3 { State.reset with len := 0x2000000000000000 }) ∧
    (msgLen (accept 0x13 { State.reset with src := 0xFFFFFFFFFFFFFFFE, len := 3 }) < 2 ^ 61 ∧
      2 ^ 64 < srcBase (accept 0x13 { State.reset with src := 0xFFFFFFFFFFFFFFFE, len := 3 }) +
        msgLen (accept 0x13 { State.reset with src := 0xFFFFFFFFFFFFFFFE, len := 3 })) ∧
    2 ^ 64 < dstBase (accept 3 { State.reset with dst := 0xFFFFFFFFFFFFFFF1 }) +
      outBytes .hashMd5 (accept 3 { State.reset with dst := 0xFFFFFFFFFFFFFFF1 }) ∧
    2 ^ 64 - 1 < outBytes .padP1024 (accept 0x14 { State.reset with len := 0xFFFFFFFFFFFFFF80 }) := by decide

/-- BusFailure: the third access of a PAD errs; also a plan of a HASH whose read errs. -/
theorem test_witness_busFailure :
    checkOperands .padP512 { ready .padP512 0x3000 with busMap := errAt3002 } = none ∧
    (portPlan .padP512 { ready .padP512 0x3000 with busMap := errAt3002 } =
      [.read 0x1000, .write 0x3000, .read 0x1001, .write 0x3001, .read 0x1002] ++ .write 0x3002 ::
        (List.range 61).map fun j => .write (0x3003 + j)) ∧
    (∀ y ∈ [Access.read 0x1000, .write 0x3000, .read 0x1001, .write 0x3001, .read 0x1002], errs errAt3002 y = false) ∧
    errs errAt3002 (.write 0x3002) = true := by decide +kernel

/-- AccessOrder and EachByteAccessedOnce, for a HASH, a PAD and a command without accesses. -/
theorem test_witness_accesses :
    (checkOperands .hashSha1 (ready .hashSha1 0x2000) = none ∧ PortQuiet .hashSha1 (ready .hashSha1 0x2000) ∧
      hashOf .hashSha1 ≠ none) ∧
    (checkOperands .padP512le (ready .padP512le 0x2000) = none ∧ PortQuiet .padP512le (ready .padP512le 0x2000) ∧
      isPad .padP512le = true) ∧
    (checkOperands .nop State.reset = none ∧ PortQuiet .nop State.reset ∧ hashOf .nop = none ∧ isPad .nop = false) :=
  ⟨⟨by decide, fun _ _ => rfl, by decide⟩, ⟨by decide, fun _ _ => rfl, rfl⟩, ⟨rfl, fun _ _ => rfl, rfl, rfl⟩⟩

/-- PaddedLengthIsLeastMultiple, BlockCount, PaddedBufferInvariants, StreamIsThePaddedBuffer and SizeOverflowThreshold: both byte
orders, the first and the last byte after a message of 55. -/
theorem test_witness_padding :
    (128 % blockBytes .p512 = 0 ∧ 56 + 1 + fieldBytes .p512 ≤ 128) ∧
    pad .p512le [0x61] = some (padBytes .p512le [0x61]) ∧ pad .p1024 [] = some (padBytes .p1024 []) ∧
    (List.replicate 55 (0 : Byte)).length ≤ 63 ∧ 63 < padLen .p512 (List.replicate 55 (0 : Byte)).length ∧
    55 % 64 ≤ 55 ∧ ¬(56 % 64 ≤ 55) := by decide

/-- RegisterReadsBackItsWrite: idle, H4 and the last block word; IdleOnlyWritesAreDropped: busy. -/
theorem test_witness_idleOnly :
    Reg.h4 ∈ [Reg.srcLo, .srcHi, .lenLo, .lenHi, .dstLo, .dstHi, .h0, .h1, .h2, .h3, .h4] ∧
    (∃ j, Reg.blkw 15 = .blkw j) ∧ State.reset.status.busy = false ∧ Reg.srcLo ≠ .srcHi ∧
    (withAgenda (ready .nop 0) [hostWR (.blkw 15) 1]).agenda = hostWR (.blkw 15) 1 :: [] ∧
    (withAgenda (ready .nop 0) [hostWR (.blkw 15) 1]).status.busy = true :=
  ⟨by decide, ⟨15, rfl⟩, rfl, by decide, rfl, rfl⟩

/-- StatusWriteClears and CtrlWriteTakesTwoBits. -/
theorem test_witness_statusCtrl :
    (withAgenda State.reset [hostWR .status 0xE]).agenda = hostWR .status 0xE :: [] ∧
    (withAgenda State.reset [hostWR .ctrl 3]).agenda = hostWR .ctrl 3 :: [] ∧ State.reset.rst = false := ⟨rfl, rfl, rfl⟩

/-- ConstantRegisters, ReadsHaveNoSideEffect (a settled and a free read), UnlistedOffsetsAreRazWi, BadRegisterAccess. -/
theorem test_witness_registerReads :
    (withAgenda (ready .nop 0) [hostRD .caps]).agenda = hostRD .caps :: [] ∧
    readIsFree (offsetOf .caps) (ready .nop 0) = false ∧ readIsFree (offsetOf .h0) (ready .nop 0) = true ∧
    (0xFFC : BitVec 12).toNat % 4 = 0 ∧ regAt 0xFFC = none ∧ ((1 : Nat) ≠ 4 ∨ (0 : BitVec 12).toNat % 4 ≠ 0) ∧
    ((4 : Nat) ≠ 4 ∨ (0x082 : BitVec 12).toNat % 4 ≠ 0) := by decide +kernel

/-- An offset that no register has, for UnlistedOffsetsAreRazWi. -/
theorem test_witness_unlisted : ∀ r : Reg, offsetOf r ≠ 0x0D4 := by
  intro r
  cases r with
  | blkw j => revert j; decide +kernel
  | _ => decide +kernel

/-- IrqFollowsDone's clauses. -/
theorem test_witness_irq :
    (2 : Word).getLsbD 1 = true ∧ (1 : Word).getLsbD 1 = false ∧ (stepState (ready .nop 0)).status.done = true := by
  decide +kernel

/-- ResetClearsTheBlock and ResetKeepsMemory: idle; a HASH cut; a PAD cut. -/
theorem test_witness_reset :
    (withAgenda (ready .hashMd5 0x2000) [.setRst true]).agenda = .setRst true :: [] ∧
    State.reset.status.busy = false ∧ runningCommand (accept 5 State.reset) = none ∧
    runningCommand (ready .hashMd5 0x2000) = some .hashMd5 ∧ padOverlaps .hashMd5 (ready .hashMd5 0x2000) = false ∧
    runningCommand (ready .padP512 0x1001) = some .padP512 := by decide

/-- The invariant in a state that runs a command: accepted, and in the middle of a block. -/
theorem test_witness_invariant :
    (Inv (ready .hashMd5 0x2000) ∧ (ready .hashMd5 0x2000).agenda = [] ∧ (ready .hashMd5 0x2000).status.busy = true) ∧
    (Inv midHash ∧ midHash.agenda = [] ∧ midHash.status.busy = true) := by
  refine ⟨⟨⟨?_, ?_, ?_, ?_, ?_⟩, rfl, rfl⟩, ⟨⟨?_, ?_, ?_, ?_, ?_⟩, rfl, rfl⟩⟩
  · show Memory.wf abcMem; decide
  · exact ⟨by decide, fun _ => ⟨rfl, rfl, rfl⟩, fun _ => rfl, fun h => by cases h⟩
  · exact ⟨fun _ => ⟨rfl, rfl, rfl⟩, fun h => by cases h⟩
  · intro h; cases h
  · trivial
  · show Memory.wf abcMem; decide
  · exact ⟨by decide, fun _ => ⟨rfl, rfl, rfl⟩, fun _ => rfl, fun h => by cases h⟩
  · exact ⟨fun _ => ⟨rfl, rfl, rfl⟩, fun h => by cases h⟩
  · intro h; cases h
  · exact ⟨.hashMd5, by decide, by decide, ⟨.md5, rfl, by decide⟩, fun _ => ⟨by decide, rfl, rfl⟩⟩

/-- EngineStepsRefineRegisterCommands, -Hash and -Pad. -/
theorem test_witness_refinement :
    (Accepted (ready .compressSha1 0) .compressSha1 ∧ geomOf .compressSha1 = none) ∧
    (Accepted (ready .hashSha1 0x2000) .hashSha1 ∧ hashOf .hashSha1 ≠ none ∧ MemoryOk (ready .hashSha1 0x2000)) ∧
    (Accepted (ready .padP1024 0x2000) .padP1024 ∧ isPad .padP1024 = true ∧ MemoryOk (ready .padP1024 0x2000)) :=
  ⟨⟨accepted_ready _ _, rfl⟩, ⟨accepted_ready _ _, by decide, by show Memory.wf abcMem; decide⟩,
    ⟨accepted_ready _ _, rfl, by show Memory.wf abcMem; decide⟩⟩

/-- OvrChangesOnlyByTheHost (a rise, a fall by STATUS, a fall by reset) and ErrAddrOnlyByBus's steps. -/
theorem test_witness_ovr :
    (step (withAgenda (ready .nop 0) [hostWR .cmd 0]) = .next (stepState (withAgenda (ready .nop 0) [hostWR .cmd 0])) ∧
      (ready .nop 0).status.ovr = false ∧
      (stepState (withAgenda (ready .nop 0) [hostWR .cmd 0])).status.ovr = true) ∧
    (stepState (withAgenda { State.reset with status := ⟨false, false, false, true, 0⟩ } [hostWR .status 8])).status.ovr
      = false ∧
    (stepState (withAgenda { State.reset with status := ⟨false, false, false, true, 0⟩ } [.setRst true])).status.ovr
      = false :=
  ⟨⟨by simp only [stepState]; rfl, rfl, by decide +kernel⟩, by decide +kernel, by decide +kernel⟩

/-- BadRegisterAccess: both events, a bad width and a good one. -/
theorem test_witness_badAccess :
    Event.rd 2 0 ∈ [Event.rd 2 0, .wr 2 0 1] ∧ Event.wr 4 0x88 1 ∈ [Event.rd 4 0x88, .wr 4 0x88 1] ∧
    (withAgenda State.reset [.wr 4 0x88 1]).agenda = .wr 4 0x88 1 :: [] ∧ (0x88 : BitVec 12).toNat % 4 = 0 ∧
    (withAgenda State.reset [.rd 2 0]).agenda = .rd 2 0 :: [] := by decide

/-- RaceKeepsTheOutcome's COMPLETE clauses, for both HASH commands, at the last source byte. -/
theorem test_witness_lateRace : ∀ i ∈ [Instr.hashMd5, .hashSha1],
    (lateRace i).phase = .complete ∧ (lateRace i).eng.result = none ∧ decode (lateRace i).eng.cmdword = .ok i ∧
    engineStep (lateRace i) = .next (complete i none (settleRaces i (lateRace i))) ∧
    ∃ q, q < msgLen (lateRace i) ∧ srcBase (lateRace i) + q ∈ (lateRace i).raced := by
  intro i hi
  have hd : decode (encode i) = .ok i := by cases i <;> decide
  refine ⟨rfl, rfl, hd, ?_, 2, show 2 < 3 by decide, show 0x1000 + 2 ∈ [0x1002] by decide⟩
  show (match decode (encode i) with
    | .ok j => Host.Outcome.next (complete j none (settleRaces j (lateRace i)))
    | .error _ => .next (completeIllegal (lateRace i))) = _
  rw [hd]

/-- CtrlDoesNotReachTheRunningCommand's engine steps: one from the middle of a block; SizeFailure and AddrFailure with a
destination byte raced. -/
theorem test_witness_engineSteps :
    engineSteps 1 midHash = .next (stepMd5 midHash) ∧
    2 ^ 61 ≤ msgLen { accept 3 { State.reset with len := 0x2000000000000000 } with raced := [0] } :=
  ⟨rfl, by decide⟩

/-- EngineStepsRefineRegisterCommands' illegal word, and ErrAddrOnlyByBus's end of a command. -/
theorem test_witness_illegalSteps :
    ((accept 5 State.reset).phase = .check ∧ decode (accept 5 State.reset).eng.cmdword = .error .reservedOperation) ∧
    (stepState { ready .padP512 0x3000 with busMap := errAt3002 }).status.errcode = 4 ∧
    { ready .padP512 0x3000 with busMap := errAt3002 }.phase ≠ .idle := ⟨⟨rfl, by decide⟩, by decide +kernel, by decide⟩

/-- RegisterReadsBackItsWrite's steps: a write while idle, a read while idle, a read of STATUS while busy. -/
theorem test_witness_registerSteps :
    ((withAgenda State.reset [hostWR .h4 7]).agenda = hostWR .h4 7 :: [] ∧ State.reset.rst = false ∧
      State.reset.status.busy = false) ∧
    (withAgenda State.reset [hostRD (.blkw 15)]).agenda = hostRD (.blkw 15) :: [] ∧
    ((withAgenda (ready .nop 0) [hostRD .status]).agenda = hostRD .status :: [] ∧ (ready .nop 0).status.busy = true ∧
      (ready .nop 0).rst = false) := ⟨⟨rfl, rfl, rfl⟩, rfl, ⟨rfl, rfl, rfl⟩⟩

/-- RoundFunctionsBitByBit and ScheduleRecurrence at the ends of their ranges. -/
theorem test_witness_indices : (0 < 32 ∧ 31 < 32) ∧ (15 < 16 ∧ 19 < 20) ∧ (16 ≤ 16 ∧ 16 < 80) ∧ (16 ≤ 79 ∧ 79 < 80) := by decide

end Sys2Proof.Tests
end

/-! ## Refinement: the engine's micro-steps end where `exec` does (00_scope.md R13, 70_reset_and_hazards.md R256) -/

namespace Sys2Proof.Refinement

open Sys2Proof.Machine

/-! ### Runs of engine steps -/

/-- One engine step leads from `s` to `t`. -/
def EngineStepTo (s t : State) : Prop := engineStep s = .next t

/-- Some number of engine steps leads from `s` to `t`. -/
abbrev Reaches : State → State → Prop := Relation.ReflTransGen EngineStepTo

theorem engineSteps_succ_of_step {s t : State} (h : engineStep s = .next t) (n : Nat) :
    engineSteps (n + 1) s = engineSteps n t := by
  simp [engineSteps, h]

/-- A run is one of the model's `engineSteps`. -/
theorem Reaches.engineSteps {s t : State} (h : Reaches s t) : ∃ n, engineSteps n s = .next t := by
  induction h using Relation.ReflTransGen.head_induction_on with
  | refl => exact ⟨0, rfl⟩
  | head hstep _ ih =>
    obtain ⟨n, hn⟩ := ih
    exact ⟨n + 1, (engineSteps_succ_of_step hstep n).trans hn⟩

/-- The outcome `o` of an engine step is a state from which the engine reaches `u`. -/
def LeadsTo (o : Host.Outcome State Fault Refusal) (u : State) : Prop := ∃ t, o = .next t ∧ Reaches t u

theorem LeadsTo.next {t u : State} (h : Reaches t u) : LeadsTo (.next t) u := ⟨t, rfl, h⟩

theorem reaches_of_leadsTo {t u : State} (h : LeadsTo (engineStep t) u) : Reaches t u := by
  obtain ⟨t', hstep, hrun⟩ := h
  exact .head hstep hrun

/-! ### What a running command leaves alone -/

/-- What no command changes between its acceptance in `s` and its completion: the registers it does not work in, the other
agents, the free draw and the latches. -/
structure Frame (s t : State) : Prop where
  status : t.status = s.status
  ctrl : t.ctrl = s.ctrl
  src : t.src = s.src
  len : t.len = s.len
  dst : t.dst = s.dst
  outlen : t.outlen = s.outlen
  erraddr : t.erraddr = s.erraddr
  busMap : t.busMap = s.busMap
  rst : t.rst = s.rst
  agenda : t.agenda = s.agenda
  replies : t.replies = s.replies
  raced : t.raced = s.raced
  free : t.free = s.free
  cmdword : t.eng.cmdword = s.eng.cmdword
  sha1Le : t.eng.sha1Le = s.eng.sha1Le
  latchedSrc : t.eng.src = s.eng.src
  latchedLen : t.eng.len = s.eng.len
  latchedDst : t.eng.dst = s.eng.dst

namespace Frame

variable {s t : State}

theorem refl (s : State) : Frame s s := by constructor <;> rfl

theorem symm (h : Frame s t) : Frame t s := by
  constructor <;> simp only [h.status, h.ctrl, h.src, h.len, h.dst, h.outlen, h.erraddr, h.busMap, h.rst, h.agenda,
    h.replies, h.raced, h.free, h.cmdword, h.sha1Le, h.latchedSrc, h.latchedLen, h.latchedDst]

theorem trans {u : State} (h : Frame s t) (k : Frame t u) : Frame s u := by
  constructor <;> simp only [k.status, k.ctrl, k.src, k.len, k.dst, k.outlen, k.erraddr, k.busMap, k.rst, k.agenda,
    k.replies, k.raced, k.free, k.cmdword, k.sha1Le, k.latchedSrc, k.latchedLen, k.latchedDst,
    h.status, h.ctrl, h.src, h.len, h.dst, h.outlen, h.erraddr, h.busMap, h.rst, h.agenda,
    h.replies, h.raced, h.free, h.cmdword, h.sha1Le, h.latchedSrc, h.latchedLen, h.latchedDst]

theorem msgLen (h : Frame s t) : msgLen t = msgLen s := by simp only [Machine.msgLen, h.latchedLen]

theorem srcBase (h : Frame s t) : srcBase t = srcBase s := by simp only [Machine.srcBase, h.latchedSrc]

theorem dstBase (h : Frame s t) : dstBase t = dstBase s := by simp only [Machine.dstBase, h.latchedDst]

theorem paddedLen (h : Frame s t) (i : Instr) : paddedLen i t = paddedLen i s := by
  simp only [Machine.paddedLen, h.msgLen]

theorem outBytes (h : Frame s t) (i : Instr) : outBytes i t = outBytes i s := by
  cases i <;> simp only [Machine.outBytes, h.paddedLen]

theorem destBytes (h : Frame s t) (i : Instr) : destBytes i t = destBytes i s := by
  simp only [Machine.destBytes, h.outBytes, h.dstBase]

theorem sourceBytes (h : Frame s t) : sourceBytes t = sourceBytes s := by
  simp only [Machine.sourceBytes, h.msgLen, h.srcBase]

theorem padOverlaps (h : Frame s t) (i : Instr) : padOverlaps i t = padOverlaps i s := by
  simp only [Machine.padOverlaps, h.msgLen, h.srcBase, h.dstBase, h.outBytes]

theorem scrambleRaced_mem (h : Frame s t) (hm : t.mem = s.mem) (i : Instr) :
    (scrambleRaced i t).mem = (scrambleRaced i s).mem := by
  simp only [scrambleRaced, h.free, h.raced, h.dstBase, h.destBytes, hm]

theorem scrambleOutput (h : Frame s t) (hm : t.mem = s.mem) (i : Instr) : scrambleOutput i t = scrambleOutput i s := by
  simp only [Machine.scrambleOutput, h.free, h.dstBase, h.srcBase, h.destBytes, h.sourceBytes, h.padOverlaps, hm]

/-- The end of a command depends on the frame, the accesses made, and what the hazards leave of registers and memory. -/
theorem complete_eq (h : Frame s t) {i : Instr} {r : Option CmdError} (hport : t.port = s.port)
    (hregs : HashRegsFrame (unsettle i r s) (unsettle i r t)) (hmem : (unsettle i r t).mem = (unsettle i r s).mem) :
    complete i r t = complete i r s := by
  obtain ⟨h0, h1, h2, h3, h4, hblk, hcnt⟩ := hregs
  simp only [complete, finish, unsettle_status, unsettle_ctrl, unsettle_src, unsettle_len, unsettle_dst,
    unsettle_outlen, unsettle_erraddr, unsettle_busMap, unsettle_rst, unsettle_agenda, unsettle_replies, unsettle_port,
    unsettle_free, h.status, h.ctrl, h.src, h.len, h.dst, h.outlen, h.erraddr, h.busMap, h.rst, h.agenda, h.replies,
    h.free, h.outBytes, hport, h0, h1, h2, h3, h4, hblk, hcnt, hmem]

/-- A command that succeeds from states with the same registers and memory ends in the same state. -/
theorem complete_none_eq (h : Frame s t) {i : Instr} (hport : t.port = s.port) (hregs : HashRegsFrame s t)
    (hmem : t.mem = s.mem) : complete i none t = complete i none s := by
  refine h.complete_eq hport (by simpa [HashRegsFrame] using hregs) ?_
  simp only [unsettle, h.padOverlaps]
  split
  · exact h.scrambleOutput hmem i
  · exact h.scrambleRaced_mem hmem i

/-- A command that fails a check in states with the same registers and memory ends in the same state. -/
theorem complete_check_eq (h : Frame s t) {i : Instr} {e : CmdError} (he : e = .size ∨ e = .addr)
    (hport : t.port = s.port) (hregs : HashRegsFrame s t) (hmem : t.mem = s.mem) :
    complete i (some e) t = complete i (some e) s := by
  rcases he with rfl | rfl
  · exact h.complete_eq hport (by simpa [HashRegsFrame] using hregs) (h.scrambleRaced_mem hmem i)
  · exact h.complete_eq hport (by simpa [HashRegsFrame] using hregs) (h.scrambleRaced_mem hmem i)

end Frame

/-- The registers that a HASH writes, seen as five chaining words, BLK and BLKCNT. -/
theorem hashRegsFrame_iff {s t : State} :
    HashRegsFrame s t ↔ sha1H5 t = sha1H5 s ∧ t.blk = s.blk ∧ t.blkcnt = s.blkcnt := by
  simp only [HashRegsFrame, sha1H5, Sha1State.mk.injEq, and_assoc]

/-! ### The end phases: CHECK's failures and COMPLETE -/

section
variable {s t : State} {i : Instr}

theorem engineStep_complete (hp : t.phase = .complete) (hd : decode t.eng.cmdword = .ok i) :
    engineStep t = .next (complete i t.eng.result (settleRaces i t)) := by
  simp [engineStep, hp, tickComplete, hd]

/-- The engine once CHECK has passed (10_state.md R47). -/
def checked (i : Instr) (s : State) : State :=
  { s with phase := firstPhase i, eng := { s.eng with q := 0, p := paddedLen i s, k := 0, result := none }, got := [] }

@[simp] theorem checked_h5 (i : Instr) (s : State) : sha1H5 (checked i s) = sha1H5 s := rfl
@[simp] theorem checked_blk (i : Instr) (s : State) : (checked i s).blk = s.blk := rfl
@[simp] theorem checked_blkcnt (i : Instr) (s : State) : (checked i s).blkcnt = s.blkcnt := rfl
@[simp] theorem checked_mem (i : Instr) (s : State) : (checked i s).mem = s.mem := rfl
@[simp] theorem checked_port (i : Instr) (s : State) : (checked i s).port = s.port := rfl
@[simp] theorem checked_result (i : Instr) (s : State) : (checked i s).eng.result = none := rfl

theorem engineStep_check_passed (h : Accepted s i) (hc : checkOperands i s = none) :
    engineStep s = .next (checked i s) := by
  simp [engineStep, h.1, tickCheck, h.2, hc, checked]

theorem engineStep_check_failed (h : Accepted s i) {e : CmdError} (hc : checkOperands i s = some e) :
    engineStep s = .next (raiseError e s) := by
  simp [engineStep, h.1, tickCheck, h.2, hc]

theorem frame_checked (i : Instr) (s : State) : Frame s (checked i s) := by constructor <;> rfl

theorem frame_raiseError (e : CmdError) (s : State) : Frame s (raiseError e s) := by constructor <;> rfl

/-- A state that has raised an error completes with it, and settles no race. -/
theorem engineStep_raiseError (e : CmdError) (hd : decode s.eng.cmdword = .ok i) :
    engineStep (raiseError e s) = .next (complete i (some e) (raiseError e s)) := by
  rw [engineStep_complete (t := raiseError e s) rfl hd, settleRaces_failed _ _ (by simp [raiseError])]
  rfl

/-- A failed check ends the command as the merged step does (60_exceptions.md R217). -/
theorem reaches_failed_check (h : Accepted s i) {e : CmdError} (hc : checkOperands i s = some e) :
    Reaches s (complete i (some e) s) := by
  have hend : complete i (some e) (raiseError e s) = complete i (some e) s :=
    (frame_raiseError e s).complete_check_eq (checkOperands_some i s e hc) rfl
      ⟨rfl, rfl, rfl, rfl, rfl, rfl, rfl⟩ rfl
  refine .head (engineStep_check_failed h hc) (.single ?_)
  exact (engineStep_raiseError e h.2).trans (congrArg _ hend)

end

/-! ### One block: LOADW, the steps and ADD -/

/-- The block function of an algorithm on the five chaining registers; MD5 leaves H4 alone (41_md5.md R152). -/
def compressWords : Alg → Sha1State → Block → Sha1State
  | .md5, h, blk =>
    let v := md5Compress { a := h.a, b := h.b, c := h.c, d := h.d } blk
    { a := v.a, b := v.b, c := v.c, d := v.d, e := h.e }
  | .sha1, h, blk => sha1Compress h blk

/-- What a COMPRESS does to the registers. -/
def compressRegs : Alg → State → State
  | .md5 => compressMd5Regs
  | .sha1 => compressSha1Regs

@[simp] theorem compressRegs_h5 (alg : Alg) (s : State) :
    sha1H5 (compressRegs alg s) = compressWords alg (sha1H5 s) s.blk := by
  cases alg <;> simp [compressRegs, compressWords, sha1H5, md5H4]

@[simp] theorem compressRegs_blkcnt (alg : Alg) (s : State) : (compressRegs alg s).blkcnt = s.blkcnt + 1 := by
  cases alg <;> simp [compressRegs]

@[simp] theorem compressRegs_blk (alg : Alg) (s : State) : (compressRegs alg s).blk = s.blk := by
  cases alg <;> simp [compressRegs]

@[simp] theorem compressRegs_mem (alg : Alg) (s : State) : (compressRegs alg s).mem = s.mem := by
  cases alg <;> simp [compressRegs]

@[simp] theorem compressRegs_port (alg : Alg) (s : State) : (compressRegs alg s).port = s.port := by
  cases alg <;> simp [compressRegs]

@[simp] theorem compressRegs_got (alg : Alg) (s : State) : (compressRegs alg s).got = s.got := by
  cases alg <;> simp [compressRegs]

theorem frame_compressRegs (alg : Alg) (s : State) : Frame s (compressRegs alg s) := by
  cases alg <;> constructor <;> simp [compressRegs]

/-- The phase of a block of which `n` steps are done. -/
def stepPhase (alg : Alg) (n : Nat) : Phase := if n = stepBound alg then .add else .step

/-- The engine after LOADW and `n` steps of the block in BLK (41_md5.md R141, 42_sha1.md R172). -/
def afterSteps : Alg → State → Nat → State
  | .md5, s, n =>
    let v := md5Steps (md5Words s.blk) n (md5H4 s)
    { loadMd5 s with
      phase := stepPhase .md5 n
      eng := { (loadMd5 s).eng with a := v.a, b := v.b, c := v.c, d := v.d, t := n } }
  | .sha1, s, n =>
    let v := sha1Steps (sha1Schedule s.blk) n (sha1H5 s)
    { loadSha1 s with
      phase := stepPhase .sha1 n
      eng := { (loadSha1 s).eng with a := v.a, b := v.b, c := v.c, d := v.d, e := v.e, t := n } }

theorem md5Steps_succ (x : Vector Word 16) (n : Nat) (v : Md5State) :
    md5Steps x (n + 1) v = md5Step x n (md5Steps x n v) := by
  simp [md5Steps, List.range_succ]

theorem sha1Steps_succ (w : Vector Word 80) (n : Nat) (v : Sha1State) :
    sha1Steps w (n + 1) v = sha1Step w n (sha1Steps w n v) := by
  simp [sha1Steps, List.range_succ]

section
variable {s : State} {i : Instr} {alg : Alg}

theorem engineStep_loadw (hp : s.phase = .loadw) (hd : decode s.eng.cmdword = .ok i) (hb : blockAlg i = some alg) :
    engineStep s = .next (afterSteps alg s 0) := by
  cases alg with
  | md5 => simp only [engineStep, hp, tickWork, hd, tickLoadw, hb]; rfl
  | sha1 => simp only [engineStep, hp, tickWork, hd, tickLoadw, hb]; rfl

theorem afterSteps_phase (alg : Alg) (s : State) (n : Nat) : (afterSteps alg s n).phase = stepPhase alg n := by
  cases alg <;> rfl

@[simp] theorem afterSteps_t (alg : Alg) (s : State) (n : Nat) : (afterSteps alg s n).eng.t = n := by cases alg <;> rfl

@[simp] theorem afterSteps_result (alg : Alg) (s : State) (n : Nat) :
    (afterSteps alg s n).eng.result = s.eng.result := by
  cases alg <;> rfl

@[simp] theorem afterSteps_q (alg : Alg) (s : State) (n : Nat) : (afterSteps alg s n).eng.q = s.eng.q := by
  cases alg <;> rfl

@[simp] theorem afterSteps_p (alg : Alg) (s : State) (n : Nat) : (afterSteps alg s n).eng.p = s.eng.p := by
  cases alg <;> rfl

@[simp] theorem afterSteps_k (alg : Alg) (s : State) (n : Nat) : (afterSteps alg s n).eng.k = s.eng.k := by
  cases alg <;> rfl

theorem frame_afterSteps (alg : Alg) (s : State) (n : Nat) : Frame s (afterSteps alg s n) := by
  cases alg <;> constructor <;> rfl

theorem stepMd5_afterSteps (s : State) (n : Nat) : stepMd5 (afterSteps .md5 s n) = afterSteps .md5 s (n + 1) := by
  simp only [afterSteps, md5Steps_succ]
  rfl

theorem stepSha1_afterSteps (s : State) (n : Nat) : stepSha1 (afterSteps .sha1 s n) = afterSteps .sha1 s (n + 1) := by
  simp only [afterSteps, sha1Steps_succ]
  rfl

theorem engineStep_afterSteps (hd : decode s.eng.cmdword = .ok i) (hb : blockAlg i = some alg) {n : Nat}
    (hn : n < stepBound alg) : engineStep (afterSteps alg s n) = .next (afterSteps alg s (n + 1)) := by
  have hp : (afterSteps alg s n).phase = .step := by rw [afterSteps_phase, stepPhase, if_neg (by omega)]
  have hd' : decode (afterSteps alg s n).eng.cmdword = .ok i := by rw [(frame_afterSteps alg s n).cmdword, hd]
  simp only [engineStep, hp, tickWork, hd', tickStep, hb, afterSteps_t]
  cases alg with
  | md5 => simp only [stepMd5_afterSteps]; exact if_pos hn
  | sha1 => simp only [stepSha1_afterSteps]; exact if_pos hn

theorem reaches_afterSteps (hd : decode s.eng.cmdword = .ok i) (hb : blockAlg i = some alg) (n : Nat)
    (hn : n ≤ stepBound alg) : Reaches (afterSteps alg s 0) (afterSteps alg s n) := by
  induction n with
  | zero => exact .refl
  | succ n ih => exact (ih (by omega)).tail (engineStep_afterSteps hd hb (by omega))

/-- The state after a whole block: the registers of COMPRESS, at the phase after ADD. -/
def afterBlock (i : Instr) (alg : Alg) (s : State) : State :=
  { compressRegs alg s with phase := afterAdd i s, eng := (afterSteps alg s (stepBound alg)).eng }

theorem afterAdd_afterSteps (i : Instr) (alg : Alg) (s : State) (n : Nat) :
    afterAdd i (afterSteps alg s n) = afterAdd i s := by
  cases alg <;> rfl

theorem addMd5_afterSteps (s : State) (n : Nat) : addMd5 (afterSteps .md5 s n) =
    setMd5Block (md5Add (md5H4 s) (md5Steps (md5Words s.blk) n (md5H4 s))) (afterSteps .md5 s n) := rfl

theorem addSha1_afterSteps (s : State) (n : Nat) : addSha1 (afterSteps .sha1 s n) =
    setSha1Block (sha1Add (sha1H5 s) (sha1Steps (sha1Schedule s.blk) n (sha1H5 s))) (afterSteps .sha1 s n) := rfl

theorem md5Compress_eq (h : Md5State) (blk : Block) :
    md5Add h (md5Steps (md5Words blk) (stepBound .md5) h) = md5Compress h blk := by
  unfold md5Compress
  rfl

theorem sha1Compress_eq (h : Sha1State) (blk : Block) :
    sha1Add h (sha1Steps (sha1Schedule blk) (stepBound .sha1) h) = sha1Compress h blk := by
  unfold sha1Compress
  rfl

theorem engineStep_add (hd : decode s.eng.cmdword = .ok i) (hb : blockAlg i = some alg) :
    engineStep (afterSteps alg s (stepBound alg)) = .next (afterBlock i alg s) := by
  have hp : (afterSteps alg s (stepBound alg)).phase = .add := by rw [afterSteps_phase, stepPhase, if_pos rfl]
  have hd' : decode (afterSteps alg s (stepBound alg)).eng.cmdword = .ok i := by
    rw [(frame_afterSteps alg s _).cmdword, hd]
  simp only [engineStep, hp, tickWork, hd', tickAdd, hb, afterAdd_afterSteps]
  cases alg with
  | md5 => simp only [addMd5_afterSteps, md5Compress_eq]; rfl
  | sha1 => simp only [addSha1_afterSteps, sha1Compress_eq]; rfl

@[simp] theorem afterBlock_h5 (i : Instr) (alg : Alg) (s : State) :
    sha1H5 (afterBlock i alg s) = compressWords alg (sha1H5 s) s.blk := compressRegs_h5 alg s

@[simp] theorem afterBlock_blkcnt (i : Instr) (alg : Alg) (s : State) :
    (afterBlock i alg s).blkcnt = s.blkcnt + 1 := compressRegs_blkcnt alg s

@[simp] theorem afterBlock_blk (i : Instr) (alg : Alg) (s : State) :
    (afterBlock i alg s).blk = s.blk := compressRegs_blk alg s

@[simp] theorem afterBlock_mem (i : Instr) (alg : Alg) (s : State) :
    (afterBlock i alg s).mem = s.mem := compressRegs_mem alg s

@[simp] theorem afterBlock_port (i : Instr) (alg : Alg) (s : State) :
    (afterBlock i alg s).port = s.port := compressRegs_port alg s

@[simp] theorem afterBlock_got (i : Instr) (alg : Alg) (s : State) :
    (afterBlock i alg s).got = s.got := compressRegs_got alg s

@[simp] theorem afterBlock_phase (i : Instr) (alg : Alg) (s : State) : (afterBlock i alg s).phase = afterAdd i s := rfl

@[simp] theorem afterBlock_eng (i : Instr) (alg : Alg) (s : State) :
    (afterBlock i alg s).eng = (afterSteps alg s (stepBound alg)).eng := rfl

theorem frame_afterBlock (i : Instr) (alg : Alg) (s : State) : Frame s (afterBlock i alg s) := by
  have hregs := frame_compressRegs alg s
  have heng := frame_afterSteps alg s (stepBound alg)
  exact { hregs with
    cmdword := heng.cmdword, sha1Le := heng.sha1Le
    latchedSrc := heng.latchedSrc, latchedLen := heng.latchedLen, latchedDst := heng.latchedDst }

/-- LOADW, STEP and ADD of one block. -/
theorem reaches_afterBlock (hp : s.phase = .loadw) (hd : decode s.eng.cmdword = .ok i) (hb : blockAlg i = some alg) :
    Reaches s (afterBlock i alg s) :=
  .head (engineStep_loadw hp hd hb)
    ((reaches_afterSteps hd hb _ le_rfl).tail (engineStep_add hd hb))

end

/-! ### The commands that access no memory -/

/-- What INIT_H does to the registers. -/
def initRegs : Alg → State → State
  | .md5 => initMd5Regs
  | .sha1 => initSha1Regs

theorem frame_initRegs (alg : Alg) (s : State) : Frame s (initRegs alg s) := by
  cases alg <;> constructor <;> simp [initRegs]

section
variable {s t u : State} {i : Instr} {alg : Alg}

theorem engineStep_initH {p : Phase} (hp : s.phase = .initH) (hd : decode s.eng.cmdword = .ok i)
    (ha : afterInit i = some (alg, p)) : engineStep s = .next { initRegs alg s with phase := p } := by
  cases alg with
  | md5 => simp only [engineStep, hp, tickWork, hd, tickInitH, ha]; rfl
  | sha1 => simp only [engineStep, hp, tickWork, hd, tickInitH, ha]; rfl

/-- A command that reads no message has no race to settle. -/
theorem settleRaces_of_no_message (hg : geomOf i = none) (s : State) : settleRaces i s = s := by
  have hout : outputOf i (racedMessage s) s = s := by
    cases i <;> simp_all [geomOf, outputOf]
  unfold settleRaces
  split
  · rw [hout]
  · rfl

/-- A register command that has come to COMPLETE with the registers and memory of `u` ends as `u` does. -/
theorem reaches_complete_of_no_message (hg : geomOf i = none) (hp : t.phase = .complete)
    (hd : decode t.eng.cmdword = .ok i) (hr : t.eng.result = none) (hf : Frame u t) (hport : t.port = u.port)
    (hregs : HashRegsFrame u t) (hmem : t.mem = u.mem) : Reaches t (complete i none u) := by
  have hstep := engineStep_complete hp hd
  rw [hr, settleRaces_of_no_message hg, hf.complete_none_eq hport hregs hmem] at hstep
  exact .single hstep

theorem checkOperands_of_no_message (hg : geomOf i = none) (s : State) : checkOperands i s = none := by
  simp [checkOperands, hg]

theorem reaches_checked (h : Accepted s i) (hg : geomOf i = none) : Reaches s (checked i s) :=
  .single (engineStep_check_passed h (checkOperands_of_no_message hg s))

theorem reaches_nop (h : Accepted s .nop) : Reaches s (complete .nop none s) :=
  (reaches_checked h rfl).trans <|
    reaches_complete_of_no_message rfl rfl h.2 rfl (frame_checked _ s) rfl ⟨rfl, rfl, rfl, rfl, rfl, rfl, rfl⟩ rfl

theorem reaches_init (h : Accepted s i) (ha : afterInit i = some (alg, .complete)) (hg : geomOf i = none)
    (hp : firstPhase i = .initH) : Reaches s (complete i none (initRegs alg s)) := by
  have hinit := engineStep_initH (s := checked i s) hp h.2 ha
  refine (reaches_checked h hg).trans (.head hinit ?_)
  cases alg <;>
    exact reaches_complete_of_no_message hg rfl h.2 rfl (by constructor <;> rfl) rfl
      ⟨rfl, rfl, rfl, rfl, rfl, rfl, rfl⟩ rfl

theorem reaches_compress (h : Accepted s i) (hb : blockAlg i = some alg) (hg : geomOf i = none)
    (hp : firstPhase i = .loadw) : Reaches s (complete i none (compressRegs alg s)) := by
  have hblock := reaches_afterBlock (s := checked i s) hp h.2 hb
  have hadd : afterAdd i (checked i s) = .complete := by
    cases i <;> simp_all [geomOf, afterAdd, hashOf]
  refine (reaches_checked h hg).trans (hblock.trans ?_)
  have hframe : Frame (compressRegs alg s) (afterBlock i alg (checked i s)) :=
    (frame_compressRegs alg s).symm.trans ((frame_checked i s).trans (frame_afterBlock i alg _))
  have hregs : HashRegsFrame (compressRegs alg s) (afterBlock i alg (checked i s)) := by
    simp [hashRegsFrame_iff]
  exact reaches_complete_of_no_message hg hadd (hframe.cmdword ▸ (frame_compressRegs alg s).cmdword ▸ h.2) (by simp)
    hframe (by simp) hregs (by simp)

/-- An illegal word: CHECK raises CMD, and COMPLETE ends the command (30_encoding.md R91). -/
theorem engineSteps_illegal {e : IllegalWord} (hp : s.phase = .check) (hd : decode s.eng.cmdword = .error e) :
    engineSteps 2 s = .next (completeIllegal s) := by
  have hcheck : engineStep s = .next (raiseError .cmd s) := by simp [engineStep, hp, tickCheck, hd]
  have hcomplete : engineStep (raiseError .cmd s) = .next (completeIllegal s) := by
    simp [engineStep, raiseError, tickComplete, hd, completeIllegal, finish]
  rw [engineSteps_succ_of_step hcheck, engineSteps_succ_of_step hcomplete, engineSteps]

end

/-- Settles O58: CHECK, then the command's one or two work phases, then COMPLETE. -/
theorem engineStepsRefineRegisterCommands : Obligations.EngineStepsRefineRegisterCommands := by
  unfold Obligations.EngineStepsRefineRegisterCommands
  refine ⟨fun s i h hg => ?_, fun s e hp hd => ⟨engineSteps_illegal hp hd, by simp [runAccepted, hd]⟩⟩
  cases i with
  | nop => exact (reaches_nop h).engineSteps
  | initMd5 => exact (reaches_init (alg := .md5) h rfl rfl rfl).engineSteps
  | initSha1 => exact (reaches_init (alg := .sha1) h rfl rfl rfl).engineSteps
  | compressMd5 => exact (reaches_compress (alg := .md5) h rfl rfl rfl).engineSteps
  | compressSha1 => exact (reaches_compress (alg := .sha1) h rfl rfl rfl).engineSteps
  | hashMd5 => simp [geomOf] at hg
  | hashSha1 => simp [geomOf] at hg
  | padP512 => simp [geomOf] at hg
  | padP1024 => simp [geomOf] at hg
  | padP512le => simp [geomOf] at hg

/-! ### Runs of writes to one range -/

theorem writeBytes_append (us vs : List Byte) (m : List Host.Cell) (a : Nat) :
    writeBytes m a (us ++ vs) = writeBytes (writeBytes m a us) (a + us.length) vs := by
  induction us generalizing m a with
  | nil => rfl
  | cons u us ih =>
    rw [List.cons_append, writeBytes, ih, writeBytes, List.length_cons, Nat.add_right_comm, Nat.add_assoc]

/-- A run of writes hides an earlier, shorter one from the same address up. -/
theorem writeBytes_overwrite {m : List Host.Cell} (hm : Memory.wf m) {a : Nat} {us vs : List Byte}
    (hlen : us.length ≤ vs.length) (ha : a + vs.length ≤ Config.addrLimit) :
    writeBytes (writeBytes m a us) a vs = writeBytes m a vs := by
  have hu : Memory.wf (writeBytes m a us) := writeBytes_wf us m hm a (by omega)
  refine memory_ext _ _ (writeBytes_wf vs _ hu a ha) (writeBytes_wf vs m hm a ha) fun b => ?_
  rw [readByte_writeBytes _ _ hu.1, readByte_writeBytes _ _ hm.1, readByte_writeBytes _ _ hm.1]
  split
  · rfl
  · rw [if_neg (by omega)]

/-- Scrambling a range hides what was written to it. -/
theorem scrambleRange_writeBytes {m : List Host.Cell} (hm : Memory.wf m) {a n : Nat} {vs : List Byte}
    (hlen : vs.length ≤ n) (ha : a + n ≤ Config.addrLimit) (d : Nat) :
    scrambleRange d (writeBytes m a vs) a n = scrambleRange d m a n := by
  have hv : Memory.wf (writeBytes m a vs) := writeBytes_wf vs m hm a (by omega)
  refine memory_ext _ _ (scrambleRange_wf d _ hv a n ha) (scrambleRange_wf d m hm a n ha) fun b => ?_
  rw [readByte_scrambleRange _ _ hv.1, readByte_scrambleRange _ _ hm.1, readByte_writeBytes _ _ hm.1]
  split
  · rfl
  · rw [if_neg (by omega)]

/-! ### What a HASH or PAD of a message leaves -/

/-- The bytes that command `i` writes for the message `m`: the digest of a HASH, the padded buffer of a PAD. -/
def outputBytes (i : Instr) (m : List Byte) (s : State) : List Byte :=
  match i with
  | .hashMd5 => md5DigestBytes (md5Chain (padBytes .p512le m) ((padBytes .p512le m).length / 64))
  | .hashSha1 => sha1DigestBytes (sha1Chain (padBytes .p512 m) ((padBytes .p512 m).length / 64)) s.eng.sha1Le
  | .padP512 => padBytes .p512 m
  | .padP1024 => padBytes .p1024 m
  | .padP512le => padBytes .p512le m
  | .nop | .initMd5 | .initSha1 | .compressMd5 | .compressSha1 => []

theorem outputOf_mem (i : Instr) (m : List Byte) (s : State) :
    (outputOf i m s).mem = writeBytes s.mem (dstBase s) (outputBytes i m s) := by
  cases i <;> simp only [outputOf, outputBytes, hashMd5Of, hashSha1Of, padOf, writeBytes]

theorem outputOf_port (i : Instr) (m : List Byte) (s : State) : (outputOf i m s).port = s.port := by
  cases i <;> simp [outputOf]

theorem frame_outputOf (i : Instr) (m : List Byte) (s : State) : Frame s (outputOf i m s) := by
  cases i <;> constructor <;> simp [outputOf]

theorem length_outputBytes (i : Instr) {m : List Byte} {s : State} (hm : m.length = msgLen s) :
    (outputBytes i m s).length = outBytes i s := by
  cases i <;> simp [outputBytes, outBytes, paddedLen, geomOf, hm, md5DigestBytes, length_sha1DigestBytes]

/-- What a command leaves depends on the frame and the message; a PAD and MD5's H4 keep what was there. -/
theorem outputOf_regs {s t : State} {i : Instr} (m : List Byte) (h : HashRegsFrame (outputOf i m s) t) :
    HashRegsFrame (outputOf i m s) (outputOf i m t) := by
  cases i <;> simp_all [HashRegsFrame, outputOf, hashMd5Of, hashSha1Of, padOf, setMd5, setSha1]

theorem Frame.outputBytes {s t : State} (h : Frame s t) (i : Instr) (m : List Byte) :
    outputBytes i m t = outputBytes i m s := by
  cases i <;> simp only [Refinement.outputBytes, h.sha1Le]

/-- A HASH or PAD has been accepted in `s`, passes its checks, and memory is canonical. -/
structure Started (i : Instr) (s : State) : Prop where
  decodes : decode s.eng.cmdword = .ok i
  passes : checkOperands i s = none
  transfers : geomOf i ≠ none
  memory : Memory.wf s.mem

namespace Started

variable {i : Instr} {s t : State}

theorem src_le (h : Started i s) : srcBase s + msgLen s ≤ Config.addrLimit :=
  (checkOperands_none i s h.passes h.transfers).1

theorem dst_le (h : Started i s) : dstBase s + outBytes i s ≤ Config.addrLimit :=
  (checkOperands_none i s h.passes h.transfers).2

/-- What the engine wrote to the destination does not show once the output is scrambled. -/
theorem scrambleOutput_written (h : Started i s) (hf : Frame s t) {vs : List Byte} (hlen : vs.length ≤ outBytes i s)
    (hmem : t.mem = writeBytes s.mem (dstBase s) vs) : scrambleOutput i t = scrambleOutput i s := by
  have hdest := destBytes_checked i s h.passes
  have hscr := scrambleRange_writeBytes h.memory hlen h.dst_le s.free
  simp only [scrambleOutput, hf.free, hf.dstBase, hf.srcBase, hf.destBytes, hf.sourceBytes, hf.padOverlaps, hmem, hdest,
    hscr]

end Started

/-! ### The merged outcome, access by access -/

/-- How command `i`, accepted in `s`, ends when the accesses `port` are recorded and `rest` are still to be made. -/
def outcome (i : Instr) (s : State) (port rest : List Access) : State :=
  match (runPort s.busMap rest).2 with
  | some a => complete i (some (.bus a)) { s with port := port ++ (runPort s.busMap rest).1 }
  | none => complete i none (outputOf i (message s) { s with port := port ++ (runPort s.busMap rest).1 })

theorem outcome_nil (i : Instr) (s : State) (port : List Access) :
    outcome i s port [] = complete i none (outputOf i (message s) { s with port := port }) := by
  simp [outcome, runPort]

theorem outcome_cons_quiet {i : Instr} {s : State} {x : Access} (hx : errs s.busMap x = false) (port rest : List Access) :
    outcome i s port (x :: rest) = outcome i s (port ++ [x]) rest := by
  simp [outcome, runPort, hx]

theorem outcome_cons_errs {i : Instr} {s : State} {x : Access} (hx : errs s.busMap x = true) (port rest : List Access) :
    outcome i s port (x :: rest) = complete i (some (.bus (accessAddr x))) { s with port := port ++ [x] } := by
  simp [outcome, runPort, hx]

/-- A HASH or PAD reads its message, then leaves its output. -/
theorem exec_eq_runChecked {i : Instr} (hg : geomOf i ≠ none) (s : State) :
    exec i s = .next (runChecked i (fun u => outputOf i (message u) u) s) := by
  cases i <;> simp only [geomOf, ne_eq, not_true_eq_false] at hg <;> rfl

/-- The merged step of a command that passes its checks. -/
theorem exec_eq_outcome {i : Instr} {s : State} (h : Started i s) :
    exec i s = .next (outcome i s s.port (portPlan i s)) := by
  rw [exec_eq_runChecked h.transfers, runChecked, h.passes]
  rfl

/-- The merged step of a command that fails a check. -/
theorem exec_of_failed_check {i : Instr} {s : State} {e : CmdError} (hg : geomOf i ≠ none)
    (hc : checkOperands i s = some e) : exec i s = .next (complete i (some e) s) := by
  rw [exec_eq_runChecked hg, runChecked_failed _ _ s e hc]

/-- A HASH or PAD refines its merged step if it does once it has passed its checks. -/
theorem exists_engineSteps_eq_exec {i : Instr} {s : State} (ha : Accepted s i) (hg : geomOf i ≠ none) (hm : MemoryOk s)
    (h : Started i s → Reaches s (outcome i s s.port (portPlan i s))) : ∃ n, engineSteps n s = exec i s := by
  cases hc : checkOperands i s with
  | some e => exact exec_of_failed_check hg hc ▸ (reaches_failed_check ha hc).engineSteps
  | none =>
    have hs : Started i s := ⟨ha.2, hc, hg, hm⟩
    exact exec_eq_outcome hs ▸ (h hs).engineSteps

/-! ### A running HASH or PAD -/

/-- `t` is a state of the run of the HASH or PAD accepted in `s`: a bus error would leave the same registers, and nothing
but destination bytes has been written. -/
structure InRun (i : Instr) (s t : State) : Prop extends Frame s t where
  spoiled : HashRegsFrame (scrambleRegs i s) (scrambleRegs i t)
  written : ∃ vs, vs.length ≤ outBytes i s ∧ t.mem = writeBytes s.mem (dstBase s) vs

section
variable {i : Instr} {s t : State} {a : Nat} {rest : List Access}

/-- Recording a read leaves the run as it was. -/
theorem InRun.read (ht : InRun i s t) (port : List Access) (got : List Byte) :
    InRun i s { t with port := port, got := got } := by
  have hspoiled := ht.spoiled
  exact { ht with spoiled := by cases i <;> exact hspoiled }

/-- A bus error in phase FILL, OUT, COPY or PADW ends the command as the merged step does (60_exceptions.md R219). -/
theorem reaches_bus (hs : Started i s) (ht : InRun i s t) (a : Nat) (port : List Access) :
    Reaches (raiseError (.bus a) { t with port := port }) (complete i (some (.bus a)) { s with port := port }) := by
  obtain ⟨vs, hlen, hmem⟩ := ht.written
  have hf : Frame { s with port := port } (raiseError (.bus a) { t with port := port }) := { ht.toFrame with }
  have hd : decode t.eng.cmdword = .ok i := ht.cmdword ▸ hs.decodes
  have hregs : HashRegsFrame (unsettle i (some (.bus a)) { s with port := port })
      (unsettle i (some (.bus a)) (raiseError (.bus a) { t with port := port })) := by
    have hspoiled := ht.spoiled
    cases i <;> exact hspoiled
  have hout : scrambleOutput i (raiseError (.bus a) { t with port := port }) = scrambleOutput i { s with port := port } :=
    Started.scrambleOutput_written (s := { s with port := port }) { hs with } hf hlen hmem
  refine .single ((engineStep_raiseError (s := { t with port := port }) (.bus a) hd).trans ?_)
  rw [hf.complete_eq rfl hregs hout]

/-- A read of the engine follows the plan: it errs as the merged step does, or the run goes on. -/
theorem leadsTo_read {use : Byte → State → Host.Outcome State Fault Refusal} (hs : Started i s) (ht : InRun i s t)
    (ha : a < Config.addrLimit)
    (hnext : LeadsTo (use (sourceByte t a)
        { t with port := t.port ++ [.read a], got := t.got ++ [sourceByte t a] })
      (outcome i s (t.port ++ [.read a]) rest)) :
    LeadsTo (engineRead a use t) (outcome i s t.port (.read a :: rest)) := by
  rw [engineRead, if_neg (Nat.not_le.2 ha)]
  cases hx : errs t.busMap (.read a) with
  | true => rw [outcome_cons_errs (ht.busMap ▸ hx), if_pos rfl]; exact .next (reaches_bus hs ht a _)
  | false => rw [outcome_cons_quiet (ht.busMap ▸ hx), if_neg Bool.false_ne_true]; exact hnext

/-- A write of the engine follows the plan. -/
theorem leadsTo_write {next : State → State} {v : Byte} (hs : Started i s) (ht : InRun i s t)
    (ha : a < Config.addrLimit)
    (hnext : Reaches (next { t with port := t.port ++ [.write a], mem := writeByte t.mem a v })
      (outcome i s (t.port ++ [.write a]) rest)) :
    LeadsTo (engineWrite a v next t) (outcome i s t.port (.write a :: rest)) := by
  rw [engineWrite, if_neg (Nat.not_le.2 ha)]
  cases hx : errs t.busMap (.write a) with
  | true => rw [outcome_cons_errs (ht.busMap ▸ hx), if_pos rfl]; exact .next (reaches_bus hs ht a _)
  | false => rw [outcome_cons_quiet (ht.busMap ▸ hx), if_neg Bool.false_ne_true]; exact .next hnext

end

/-! ### COMPLETE of a HASH or PAD -/

section
variable {i : Instr} {s t : State}

/-- The message that COMPLETE settles races with is the one CHECK would have read (70_reset_and_hazards.md R245): a raced
byte is free in both, and the others were read before they could change. -/
theorem racedMessage_eq_message (hf : Frame s t) (hgot : t.got = message s) : racedMessage t = message s := by
  simp only [racedMessage, message, hf.msgLen, hf.srcBase, hf.raced, hf.free, sourceByte, hgot]
  refine List.map_congr_left fun q hq => ?_
  have hq := List.mem_range.1 hq
  by_cases hr : srcBase s + q ∈ s.raced <;> simp [hr, List.getD, hq]

theorem frame_settleRaces (i : Instr) (s : State) : Frame s (settleRaces i s) := by constructor <;> simp

/-- COMPLETE ends the command as the merged step does, if after the races are settled registers and memory agree. -/
theorem reaches_outcome_nil (hs : Started i s) (hf : Frame s t) (hp : t.phase = .complete) (hr : t.eng.result = none)
    (hend : complete i none (settleRaces i t) = complete i none (outputOf i (message s) { s with port := t.port })) :
    Reaches t (outcome i s t.port []) := by
  have hstep := engineStep_complete hp (hf.cmdword ▸ hs.decodes)
  rw [hr, hend, ← outcome_nil] at hstep
  exact .single hstep

theorem frame_outputOf_settleRaces (hf : Frame s t) (m : List Byte) :
    Frame (outputOf i m { s with port := t.port }) (settleRaces i t) :=
  (frame_outputOf i m { s with port := t.port }).symm.trans (.trans { hf with } (frame_settleRaces i t))

/-- Settling races writes the output again, from the same message: nothing changes (70_reset_and_hazards.md R245). -/
theorem settleRaces_eq_self (hs : Started i s) (hf : Frame s t) (hgot : t.got = message s)
    (hregs : HashRegsFrame (outputOf i (message s) s) t)
    (hmem : t.mem = writeBytes s.mem (dstBase s) (outputBytes i (message s) s)) :
    HashRegsFrame (outputOf i (message s) s) (settleRaces i t) ∧
      (settleRaces i t).mem = writeBytes s.mem (dstBase s) (outputBytes i (message s) s) := by
  unfold settleRaces
  split
  · rw [racedMessage_eq_message hf hgot]
    obtain ⟨h0, h1, h2, h3, h4, hblk, _⟩ := outputOf_regs _ hregs
    obtain ⟨-, -, -, -, -, -, hcnt⟩ := hregs
    refine ⟨⟨h0, h1, h2, h3, h4, hblk, hcnt⟩, (outputOf_mem i _ t).trans ?_⟩
    rw [hf.outputBytes, hf.dstBase, hmem]
    have hlen := length_outputBytes i (length_message s)
    exact writeBytes_overwrite hs.memory le_rfl (hlen ▸ hs.dst_le)
  · exact ⟨hregs, hmem⟩

/-- A command that has written its output ends, with or without a race, as the merged step does. -/
theorem reaches_complete_output (hs : Started i s) (hf : Frame s t) (hp : t.phase = .complete)
    (hr : t.eng.result = none) (hgot : t.got = message s) (hregs : HashRegsFrame (outputOf i (message s) s) t)
    (hmem : t.mem = writeBytes s.mem (dstBase s) (outputBytes i (message s) s)) :
    Reaches t (outcome i s t.port []) := by
  obtain ⟨hregs', hmem'⟩ := settleRaces_eq_self hs hf hgot hregs hmem
  refine reaches_outcome_nil hs hf hp hr ?_
  refine (frame_outputOf_settleRaces hf _).complete_none_eq ?_ ?_ ?_
  · rw [outputOf_port, settleRaces_port]
  · cases i <;> exact hregs'
  · rw [outputOf_mem, hmem']; cases i <;> rfl

end

/-! ### The bytes of the padded stream -/

theorem getElem?_lengthField {g : Geom} {j : Nat} (l : Nat) (hj : j < fieldBytes g) :
    (lengthField g l)[j]? =
      some (if lengthBigEndian g then byteOf (8 * l) (fieldBytes g - 1 - j) else byteOf (8 * l) j) := by
  unfold lengthField
  split <;> simp [beBytes, leBytes, hj]

/-- Past the message, the padded buffer holds the generated bytes (40_padding.md R111). -/
theorem getElem?_padBytes_tail {g : Geom} {m : List Byte} {q : Nat} (hq : m.length ≤ q) (hP : q < padLen g m.length) :
    (padBytes g m)[q]? = some (padTail g m.length q) := by
  obtain ⟨j, rfl⟩ := Nat.exists_eq_add_of_le hq
  rw [padBytes, List.getElem?_append_right (by omega), Nat.add_sub_cancel_left]
  have hfield : padLen g m.length - fieldBytes g = m.length + 1 + zeroFill g m.length := by simp [padLen]
  cases j with
  | zero => simp [padTail]
  | succ j =>
    rw [padTail, if_neg (by omega), hfield, List.getElem?_cons_succ]
    by_cases hz : j < zeroFill g m.length
    · rw [if_pos (by omega), List.getElem?_append_left (by simpa using hz)]
      simp [hz]
    · have hj : m.length + (j + 1) - (m.length + 1 + zeroFill g m.length) = j - zeroFill g m.length := by omega
      rw [if_neg (by omega), List.getElem?_append_right (by simpa using hz), List.length_replicate, hj]
      exact getElem?_lengthField _ (by simp only [padLen] at hP; omega)

theorem getElem?_padBytes_message {g : Geom} {m : List Byte} {q : Nat} (hq : q < m.length) :
    (padBytes g m)[q]? = m[q]? := List.getElem?_append_left hq

theorem getElem?_message {s : State} {q : Nat} (hq : q < msgLen s) :
    (message s)[q]? = some (sourceByte s (srcBase s + q)) := by
  simp [message, hq]

/-! ### COMPLETE of a PAD whose ranges overlap -/

section
variable {i : Instr} {s t : State}

/-- Settling the races of a PAD changes no register. -/
theorem settleRaces_pad_regs (hpad : isPad i = true) (t : State) : HashRegsFrame t (settleRaces i t) := by
  unfold settleRaces
  split
  · cases i <;> simp [isPad, HashRegsFrame, outputOf] at *
  · exact ⟨rfl, rfl, rfl, rfl, rfl, rfl, rfl⟩

/-- Settling races writes destination bytes only. -/
theorem settleRaces_written (hs : Started i s) (hf : Frame s t)
    (hw : ∃ vs, vs.length ≤ outBytes i s ∧ t.mem = writeBytes s.mem (dstBase s) vs) :
    ∃ vs, vs.length ≤ outBytes i s ∧ (settleRaces i t).mem = writeBytes s.mem (dstBase s) vs := by
  unfold settleRaces
  split
  · obtain ⟨vs, hlen, hmem⟩ := hw
    have hout : (outputBytes i (racedMessage t) t).length = outBytes i s :=
      (length_outputBytes i (length_racedMessage t)).trans (hf.outBytes i)
    refine ⟨outputBytes i (racedMessage t) t, hout.le, (outputOf_mem i _ t).trans ?_⟩
    rw [hf.dstBase, hmem]
    exact writeBytes_overwrite hs.memory (hout ▸ hlen) (hout ▸ hs.dst_le)
  · exact hw

theorem isPad_of_padOverlaps (ho : padOverlaps i s = true) : isPad i = true := by
  simp only [padOverlaps, Bool.and_eq_true] at ho
  obtain ⟨⟨⟨hpad, -⟩, -⟩, -⟩ := ho
  exact hpad

/-- A PAD whose ranges overlap leaves both with any value, whatever bytes it read and wrote (40_padding.md R118). -/
theorem reaches_complete_overlap (hs : Started i s) (hf : Frame s t) (hp : t.phase = .complete)
    (hr : t.eng.result = none) (ho : padOverlaps i s = true) (hregs : HashRegsFrame s t)
    (hw : ∃ vs, vs.length ≤ outBytes i s ∧ t.mem = writeBytes s.mem (dstBase s) vs) :
    Reaches t (outcome i s t.port []) := by
  refine reaches_outcome_nil hs hf hp hr ?_
  have hpad := isPad_of_padOverlaps ho
  have hframe := frame_outputOf_settleRaces (i := i) hf (message s)
  have hregs' : HashRegsFrame (outputOf i (message s) { s with port := t.port }) (settleRaces i t) := by
    have hsettle := settleRaces_pad_regs hpad t
    rw [hashRegsFrame_iff] at hregs hsettle ⊢
    cases i <;> simp_all [isPad, outputOf, sha1H5]
  obtain ⟨vs, hlen, hmem⟩ := settleRaces_written hs hf hw
  have hengine : scrambleOutput i (settleRaces i t) = scrambleOutput i s :=
    hs.scrambleOutput_written (hf.trans (frame_settleRaces i t)) hlen hmem
  have hmerged : scrambleOutput i (outputOf i (message s) { s with port := t.port }) = scrambleOutput i s :=
    hs.scrambleOutput_written (.trans (t := { s with port := t.port }) { Frame.refl s with } (frame_outputOf i _ _))
      (length_outputBytes i (length_message s)).le (outputOf_mem i _ _)
  have ho' : padOverlaps i (outputOf i (message s) { s with port := t.port }) = true := by
    rw [(frame_outputOf i _ _).padOverlaps]; exact ho
  refine hframe.complete_eq ?_ (by simpa [HashRegsFrame] using hregs') ?_
  · rw [outputOf_port, settleRaces_port]
  · simp only [unsettle, hframe.padOverlaps, ho', if_true, hengine, hmerged]

end

/-! ### COPY and PADW -/

/-- The state of a PAD with geometry `g` of which `q` bytes have been written. Where its ranges do not overlap, these are
the padded buffer's, and what it has read is the message's. -/
structure PadAt (i : Instr) (g : Geom) (s : State) (q : Nat) (t : State) : Prop extends Frame s t where
  regs : HashRegsFrame s t
  result : t.eng.result = none
  position : t.eng.q = q
  padded : t.eng.p = padLen g (Machine.msgLen s)
  written : ∃ vs, vs.length = q ∧ t.mem = writeBytes s.mem (Machine.dstBase s) vs ∧
    (Machine.padOverlaps i s = false → vs = (padBytes g (message s)).take q ∧ t.got = (message s).take q)

section
variable {i : Instr} {g : Geom} {s t : State} {q : Nat}

theorem eq_pad_of_padGeom (hg : padGeom i = some g) : i = .pad g := by
  cases i <;> cases hg <;> rfl

theorem geomOf_of_padGeom (hg : padGeom i = some g) : geomOf i = some g := by
  obtain rfl := eq_pad_of_padGeom hg
  cases g <;> rfl

theorem isPad_of_padGeom (hg : padGeom i = some g) : isPad i = true := by
  obtain rfl := eq_pad_of_padGeom hg
  cases g <;> rfl

theorem outBytes_pad (hg : padGeom i = some g) (s : State) : outBytes i s = padLen g (msgLen s) := by
  obtain rfl := eq_pad_of_padGeom hg
  cases g <;> rfl

theorem outputBytes_pad (hg : padGeom i = some g) (m : List Byte) (s : State) : outputBytes i m s = padBytes g m := by
  obtain rfl := eq_pad_of_padGeom hg
  cases g <;> rfl

theorem outputOf_pad_regs (hg : padGeom i = some g) (m : List Byte) (s : State) :
    HashRegsFrame s (outputOf i m s) := by
  obtain rfl := eq_pad_of_padGeom hg
  cases g <;> exact ⟨rfl, rfl, rfl, rfl, rfl, rfl, rfl⟩

theorem PadAt.inRun (h : PadAt i g s q t) (hg : padGeom i = some g) (hq : q ≤ padLen g (msgLen s)) : InRun i s t := by
  obtain ⟨vs, hlen, hmem, -⟩ := h.written
  have hregs := h.regs
  refine { h.toFrame with spoiled := ?_, written := ⟨vs, ?_, hmem⟩ }
  · obtain rfl := eq_pad_of_padGeom hg
    cases g <;> exact hregs
  · rw [outBytes_pad hg, hlen]; exact hq

/-- The next byte is written: `v`, which without an overlap is the padded buffer's. -/
theorem PadAt.push (h : PadAt i g s q t) {v : Byte} {got : List Byte} (port : List Access)
    (hv : padOverlaps i s = false → (padBytes g (message s))[q]? = some v ∧ got = (message s).take (q + 1)) :
    PadAt i g s (q + 1)
      { t with
        port := port, got := got, mem := writeByte t.mem (dstBase t + q) v, eng := { t.eng with q := q + 1 } } := by
  obtain ⟨vs, rfl, hmem, hexact⟩ := h.written
  refine { h with position := rfl, written := ⟨vs ++ [v], by simp, ?_, fun ho => ?_⟩ }
  · rw [writeBytes_append, ← hmem, ← h.dstBase]; rfl
  · obtain ⟨hbyte, hgot⟩ := hv ho
    exact ⟨by rw [List.take_add_one, hbyte, ← (hexact ho).1]; rfl, hgot⟩

/-- Without an overlap a PAD reads its source as it was at acceptance. -/
theorem PadAt.sourceByte_eq (h : PadAt i g s q t) (hg : padGeom i = some g) (ho : padOverlaps i s = false)
    (hq : q < msgLen s) : sourceByte t (srcBase s + q) = sourceByte s (srcBase s + q) := by
  obtain ⟨vs, hlen, hmem, -⟩ := h.written
  have hroom := lt_padLen g (msgLen s)
  simp only [padOverlaps, isPad_of_padGeom hg, outBytes_pad hg, Bool.true_and, Bool.and_eq_false_iff,
    decide_eq_false_iff_not] at ho
  have hout : ¬(dstBase s ≤ srcBase s + q ∧ srcBase s + q < dstBase s + vs.length) := by omega
  simp only [sourceByte, h.raced, h.free, hmem, readByte_writeBytes_other _ _ _ _ hout]

/-- Writes of `n` destination bytes from byte `q` on. -/
def writePlan (s : State) (q n : Nat) : List Access := (List.range' q n).map fun k => .write (dstBase s + k)

/-- The accesses of COPY from byte `q` on. -/
def copyPlan (s : State) (q n : Nat) : List Access :=
  (List.range' q n).flatMap fun k => [.read (srcBase s + k), .write (dstBase s + k)]

theorem portPlan_pad (hg : padGeom i = some g) (s : State) :
    portPlan i s = copyPlan s 0 (msgLen s) ++ writePlan s (msgLen s) (padLen g (msgLen s) - msgLen s) := by
  simp [portPlan, geomOf_of_padGeom hg, isPad_of_padGeom hg, outBytes_pad hg, copyPlan, writePlan,
    List.range'_eq_map_range, Function.comp_def]

/-- COMPLETE of a PAD that has written its whole buffer. -/
theorem PadAt.reaches_complete (hs : Started i s) (hg : padGeom i = some g)
    (h : PadAt i g s (padLen g (msgLen s)) t) (hp : t.phase = .complete) : Reaches t (outcome i s t.port []) := by
  obtain ⟨vs, hlen, hmem, hexact⟩ := h.written
  cases ho : padOverlaps i s with
  | true =>
    refine reaches_complete_overlap hs h.toFrame hp h.result ho h.regs ⟨vs, ?_, hmem⟩
    rw [outBytes_pad hg, hlen]
  | false =>
    obtain ⟨hvs, hgot⟩ := hexact ho
    have hroom := lt_padLen g (msgLen s)
    have hregs : HashRegsFrame (outputOf i (message s) s) t := by
      have hout := outputOf_pad_regs hg (message s) s
      have hregs := h.regs
      rw [hashRegsFrame_iff] at hout hregs ⊢
      simp only [hout, hregs, and_self]
    refine reaches_complete_output hs h.toFrame hp h.result ?_ hregs ?_
    · rw [hgot, List.take_of_length_le (by rw [length_message]; omega)]
    · rw [hmem, hvs, outputBytes_pad hg, List.take_of_length_le (by rw [length_padBytes, length_message])]

theorem engineStep_padw (hp : t.phase = .padw) (hd : decode t.eng.cmdword = .ok i) :
    engineStep t = tickPadw i t := by
  simp only [engineStep, hp, tickWork, hd]

theorem engineStep_copy (hp : t.phase = .copy) (hd : decode t.eng.cmdword = .ok i) :
    engineStep t = tickCopy i t := by
  simp only [engineStep, hp, tickWork, hd]

/-- PADW, byte by byte, to the end of the command. -/
theorem PadAt.reaches_padw (hs : Started i s) (hg : padGeom i = some g) (n : Nat) (h : PadAt i g s q t)
    (hp : t.phase = .padw) (hL : msgLen s ≤ q) (hn : q + n = padLen g (msgLen s)) :
    Reaches t (outcome i s t.port (writePlan s q n)) := by
  have hd : decode t.eng.cmdword = .ok i := h.cmdword ▸ hs.decodes
  have hdst := outBytes_pad hg s ▸ hs.dst_le
  induction n generalizing q t with
  | zero =>
    obtain rfl : q = padLen g (msgLen s) := hn
    have hstep : engineStep t = .next { t with phase := .complete } := by
      simp [engineStep_padw hp hd, tickPadw, hg, h.position, h.padded, h.msgLen, hL]
    exact .head hstep (PadAt.reaches_complete hs hg { h with } rfl)
  | succ n ih =>
    have hstep : engineStep t = engineWrite (dstBase s + q) (padTail g (msgLen s) q)
        (fun u => { u with eng := { u.eng with q := q + 1 } }) t := by
      simp only [engineStep_padw hp hd, tickPadw, hg, h.position, h.padded, h.msgLen, h.dstBase]
      rw [if_neg (by omega), if_pos (by omega)]
    have hbyte : (padBytes g (message s))[q]? = some (padTail g (msgLen s) q) := by
      rw [getElem?_padBytes_tail (by rwa [length_message]) (by rw [length_message]; omega), length_message]
    have hgot : padOverlaps i s = false → t.got = (message s).take (q + 1) := fun ho => by
      obtain ⟨vs, -, -, hexact⟩ := h.written
      rw [(hexact ho).2, List.take_of_length_le (by rwa [length_message]),
        List.take_of_length_le (by rw [length_message]; omega)]
    have hnext := h.push (got := t.got) (t.port ++ [.write (dstBase s + q)]) fun ho => ⟨hbyte, hgot ho⟩
    rw [h.dstBase] at hnext
    refine reaches_of_leadsTo (hstep ▸ leadsTo_write hs (h.inRun hg (by omega)) (by omega) ?_)
    exact ih hnext hp (by omega) (by omega) hd

/-- COPY, byte by byte, then PADW. -/
theorem PadAt.reaches_copy (hs : Started i s) (hg : padGeom i = some g) (n : Nat) (h : PadAt i g s q t)
    (hp : t.phase = .copy) (hn : q + n = msgLen s) :
    Reaches t (outcome i s t.port
      (copyPlan s q n ++ writePlan s (msgLen s) (padLen g (msgLen s) - msgLen s))) := by
  have hd : decode t.eng.cmdword = .ok i := h.cmdword ▸ hs.decodes
  have hdst := outBytes_pad hg s ▸ hs.dst_le
  have hsrc := hs.src_le
  have hroom := lt_padLen g (msgLen s)
  induction n generalizing q t with
  | zero =>
    obtain rfl : q = msgLen s := hn
    have hstep : engineStep t = .next { t with phase := .padw } := by
      simp [engineStep_copy hp hd, tickCopy, hg, h.position, h.msgLen]
    exact .head hstep (PadAt.reaches_padw (t := { t with phase := .padw }) hs hg _ { h with } rfl le_rfl (by omega))
  | succ n ih =>
    have hstep : engineStep t = engineRead (srcBase s + q) (fun v u => engineWrite (dstBase s + q) v
        (fun u' => { u' with eng := { u'.eng with q := q + 1 } }) u) t := by
      simp only [engineStep_copy hp hd, tickCopy, hg, h.position, h.msgLen, h.srcBase, h.dstBase]
      rw [if_pos (by omega)]
    have hbyte : padOverlaps i s = false →
        (padBytes g (message s))[q]? = some (sourceByte t (srcBase s + q)) ∧
          t.got ++ [sourceByte t (srcBase s + q)] = (message s).take (q + 1) := fun ho => by
      obtain ⟨vs, -, -, hexact⟩ := h.written
      have hm := getElem?_message (s := s) (q := q) (by omega)
      rw [h.sourceByte_eq hg ho (by omega), getElem?_padBytes_message (by rw [length_message]; omega), List.take_add_one,
        hm, (hexact ho).2]
      exact ⟨rfl, rfl⟩
    have hrun := h.inRun hg (by omega)
    have hnext := h.push (t.port ++ [.read (srcBase s + q)] ++ [.write (dstBase s + q)]) hbyte
    rw [h.dstBase] at hnext
    refine reaches_of_leadsTo (hstep ▸ leadsTo_read hs hrun (by omega) ?_)
    refine leadsTo_write hs (hrun.read _ _) (by omega) ?_
    exact ih hnext hp (by omega) hd

theorem reaches_pad (hs : Started i s) (ha : Accepted s i) (hg : padGeom i = some g) :
    Reaches s (outcome i s s.port (portPlan i s)) := by
  have hstart : PadAt i g s 0 (checked i s) :=
    { frame_checked i s with
      regs := ⟨rfl, rfl, rfl, rfl, rfl, rfl, rfl⟩, result := rfl, position := rfl
      padded := by simp [checked, paddedLen, geomOf_of_padGeom hg]
      written := ⟨[], rfl, rfl, fun _ => ⟨rfl, rfl⟩⟩ }
  have hp : (checked i s).phase = .copy := by
    obtain rfl := eq_pad_of_padGeom hg
    cases g <;> rfl
  rw [portPlan_pad hg]
  exact .head (engineStep_check_passed ha hs.passes) (hstart.reaches_copy hs hg _ hp (by omega))

end

/-- Settles O60: CHECK, then COPY and PADW along the plan of accesses, then COMPLETE. -/
theorem engineStepsRefinePad : Obligations.EngineStepsRefinePad := by
  unfold Obligations.EngineStepsRefinePad
  intro s i ha hpad hmem
  obtain ⟨g, hg⟩ : ∃ g, padGeom i = some g := by cases i <;> simp_all [isPad, padGeom]
  have hgeom : geomOf i ≠ none := by simp [geomOf_of_padGeom hg]
  exact exists_engineSteps_eq_exec ha hgeom hmem fun hs => reaches_pad hs ha hg

/-! ### The chaining words of a HASH -/

/-- H0..H4 after `n` blocks of a padded stream; MD5 leaves H4 as it was in `s` (41_md5.md R152). -/
def chainWords (alg : Alg) (pd : List Byte) (n : Nat) (s : State) : Sha1State :=
  match alg with
  | .md5 =>
    let h := md5Chain pd n
    { a := h.a, b := h.b, c := h.c, d := h.d, e := s.h4 }
  | .sha1 => sha1Chain pd n

theorem chainWords_succ (alg : Alg) (pd : List Byte) (n : Nat) (s : State) :
    chainWords alg pd (n + 1) s = compressWords alg (chainWords alg pd n s) (streamBlock pd n) := by
  cases alg with
  | md5 => simp [chainWords, compressWords, md5Chain, List.range_succ]
  | sha1 => simp [chainWords, compressWords, sha1Chain, List.range_succ]

theorem chainWords_zero (alg : Alg) (pd : List Byte) (s t : State) (h4 : t.h4 = s.h4) :
    sha1H5 (initRegs alg t) = chainWords alg pd 0 s := by
  cases alg with
  | md5 => simp [chainWords, initRegs, sha1H5, md5Chain, h4]
  | sha1 => simp [chainWords, initRegs, sha1H5, sha1Chain]

section
variable {i : Instr} {g : Geom} {alg : Alg} {s t : State} {n q k : Nat}

/-! ### What tells a HASH from the other commands -/

theorem hashOf_cases (hi : hashOf i = some (g, alg)) :
    (i = .hashMd5 ∧ g = .p512le ∧ alg = .md5) ∨ (i = .hashSha1 ∧ g = .p512 ∧ alg = .sha1) := by
  cases i <;> simp_all [hashOf]

theorem geomOf_of_hashOf (hi : hashOf i = some (g, alg)) : geomOf i = some g := by
  obtain ⟨rfl, rfl, rfl⟩ | ⟨rfl, rfl, rfl⟩ := hashOf_cases hi <;> rfl

theorem isPad_of_hashOf (hi : hashOf i = some (g, alg)) : isPad i = false := by
  obtain ⟨rfl, rfl, rfl⟩ | ⟨rfl, rfl, rfl⟩ := hashOf_cases hi <;> rfl

theorem blockAlg_of_hashOf (hi : hashOf i = some (g, alg)) : blockAlg i = some alg := by
  obtain ⟨rfl, rfl, rfl⟩ | ⟨rfl, rfl, rfl⟩ := hashOf_cases hi <;> rfl

theorem firstPhase_of_hashOf (hi : hashOf i = some (g, alg)) : firstPhase i = .initH := by
  obtain ⟨rfl, rfl, rfl⟩ | ⟨rfl, rfl, rfl⟩ := hashOf_cases hi <;> rfl

theorem afterInit_of_hashOf (hi : hashOf i = some (g, alg)) : afterInit i = some (alg, .fill) := by
  obtain ⟨rfl, rfl, rfl⟩ | ⟨rfl, rfl, rfl⟩ := hashOf_cases hi <;> rfl

theorem outBytes_pos_of_hashOf (hi : hashOf i = some (g, alg)) (s : State) : 0 < outBytes i s := by
  obtain ⟨rfl, rfl, rfl⟩ | ⟨rfl, rfl, rfl⟩ := hashOf_cases hi <;> simp [outBytes]

/-- Both HASH commands pad to 64-byte blocks (40_padding.md R119). -/
theorem padLen_mod_of_hashOf (hi : hashOf i = some (g, alg)) (l : Nat) : padLen g l % 64 = 0 := by
  have hmod := padLen_mod g l
  obtain ⟨rfl, rfl, rfl⟩ | ⟨rfl, rfl, rfl⟩ := hashOf_cases hi <;> exact hmod

theorem outputOf_hash_h5 (hi : hashOf i = some (g, alg)) (m : List Byte) (s : State) :
    sha1H5 (outputOf i m s) = chainWords alg (padBytes g m) (padLen g m.length / 64) s := by
  obtain ⟨rfl, rfl, rfl⟩ | ⟨rfl, rfl, rfl⟩ := hashOf_cases hi <;>
    simp [outputOf, hashMd5Of, hashSha1Of, chainWords, sha1H5]

theorem outputOf_hash_blk (hi : hashOf i = some (g, alg)) (m : List Byte) (s : State) :
    (outputOf i m s).blk = streamBlock (padBytes g m) (padLen g m.length / 64 - 1) := by
  obtain ⟨rfl, rfl, rfl⟩ | ⟨rfl, rfl, rfl⟩ := hashOf_cases hi <;>
    simp [outputOf, hashMd5Of, hashSha1Of]

theorem outputOf_hash_blkcnt (hi : hashOf i = some (g, alg)) (m : List Byte) (s : State) :
    (outputOf i m s).blkcnt = BitVec.ofNat 64 (padLen g m.length / 64) := by
  obtain ⟨rfl, rfl, rfl⟩ | ⟨rfl, rfl, rfl⟩ := hashOf_cases hi <;>
    simp [outputOf, hashMd5Of, hashSha1Of]

/-- The digest bytes of chaining registers that hold the final chain. -/
theorem digestBytes_eq (hi : hashOf i = some (g, alg)) (hf : Frame s t)
    (hregs : HashRegsFrame (outputOf i (message s) s) t) : digestBytes t alg = outputBytes i (message s) s := by
  obtain ⟨h0, h1, h2, h3, h4, -, -⟩ := hregs
  obtain ⟨rfl, rfl, rfl⟩ | ⟨rfl, rfl, rfl⟩ := hashOf_cases hi <;>
    simp [digestBytes, outputBytes, md5H4, sha1H5, h0, h1, h2, h3, h4, outputOf, hashMd5Of, hashSha1Of, hf.sha1Le]

/-- A bus error of a HASH spoils every register but MD5's H4 (60_exceptions.md R219, 10_state.md R51). -/
theorem spoiled_of_hashOf (hi : hashOf i = some (g, alg)) (hf : Frame s t) (h4 : alg = .md5 → t.h4 = s.h4) :
    HashRegsFrame (scrambleRegs i s) (scrambleRegs i t) := by
  obtain ⟨rfl, rfl, rfl⟩ | ⟨rfl, rfl, rfl⟩ := hashOf_cases hi <;>
    simp [scrambleRegs, HashRegsFrame, hf.free, h4]

/-! ### OUT -/

/-- The state of a HASH that has hashed its message and written `k` digest bytes. -/
structure OutAt (i : Instr) (s : State) (k : Nat) (t : State) : Prop extends Frame s t where
  regs : HashRegsFrame (outputOf i (message s) s) t
  result : t.eng.result = none
  index : t.eng.k = k
  got : t.got = message s
  written : t.mem = writeBytes s.mem (Machine.dstBase s) ((Refinement.outputBytes i (message s) s).take k)

theorem OutAt.inRun (h : OutAt i s k t) (hi : hashOf i = some (g, alg)) : InRun i s t := by
  have h4 : alg = .md5 → t.h4 = s.h4 := by
    obtain ⟨-, -, -, -, h4, -, -⟩ := h.regs
    obtain ⟨rfl, rfl, rfl⟩ | ⟨rfl, rfl, rfl⟩ := hashOf_cases hi
    · exact fun _ => h4
    · exact nofun
  refine { h.toFrame with spoiled := spoiled_of_hashOf hi h.toFrame h4, written := ⟨_, ?_, h.written⟩ }
  rw [← length_outputBytes i (length_message s)]
  exact List.length_take_le' _ _

/-- OUT, byte by byte, to the end of the command. -/
theorem OutAt.reaches_out (hs : Started i s) (hi : hashOf i = some (g, alg)) (n : Nat) (h : OutAt i s k t)
    (hp : t.phase = if k = outBytes i s then .complete else .out) (hn : k + n = outBytes i s) :
    Reaches t (outcome i s t.port (writePlan s k n)) := by
  have hlen := length_outputBytes i (length_message s)
  have hdst := hs.dst_le
  induction n generalizing k t with
  | zero =>
    obtain rfl : k = outBytes i s := hn
    refine reaches_complete_output hs h.toFrame (by simpa using hp) h.result h.got h.regs ?_
    rw [h.written, List.take_of_length_le hlen.le]
  | succ n ih =>
    have hk : k < (outputBytes i (message s) s).length := by omega
    have hd : decode t.eng.cmdword = .ok i := h.cmdword ▸ hs.decodes
    have hbyte := List.getElem?_eq_getElem hk
    have hstep : engineStep t = engineWrite (dstBase s + k) (outputBytes i (message s) s)[k]
        (fun u => { u with
          phase := if k + 1 = outBytes i s then .complete else .out
          eng := { u.eng with k := k + 1 } }) t := by
      rw [if_neg (by omega)] at hp
      simp only [engineStep, hp, tickWork, hd, tickOut, hi, digestBytes_eq hi h.toFrame h.regs, h.index, h.dstBase,
        h.outBytes, hbyte]
    refine reaches_of_leadsTo (hstep ▸ leadsTo_write hs (h.inRun hi) (by omega) ?_)
    refine ih { h with index := rfl, written := ?_ } rfl (by omega)
    rw [List.take_add_one, hbyte, Option.toList_some, writeBytes_append, ← h.written, List.length_take,
      Nat.min_eq_left hk.le]
    rfl

/-! ### FILL and the blocks -/

/-- The state of a HASH that has compressed `n` blocks and brought `q` bytes of the padded stream in. -/
structure HashAt (i : Instr) (g : Geom) (alg : Alg) (s : State) (n q : Nat) (t : State) : Prop extends Frame s t where
  chain : sha1H5 t = chainWords alg (padBytes g (message s)) n s
  count : t.blkcnt = BitVec.ofNat 64 n
  result : t.eng.result = none
  position : t.eng.q = q
  padded : t.eng.p = padLen g (Machine.msgLen s)
  index : t.eng.k = 0
  unwritten : t.mem = s.mem
  got : t.got = (message s).take q
  block : ∀ j (hj : j < 64), 64 * n + j < q → t.blk[j] = (padBytes g (message s)).getD (64 * n + j) 0

theorem HashAt.inRun (h : HashAt i g alg s n q t) (hi : hashOf i = some (g, alg)) : InRun i s t := by
  have h4 : alg = .md5 → t.h4 = s.h4 := by
    rintro rfl
    exact congrArg Sha1State.e h.chain
  exact { h.toFrame with
    spoiled := spoiled_of_hashOf hi h.toFrame h4, written := ⟨[], Nat.zero_le _, h.unwritten⟩ }

/-- A byte of the stream lands in BLK. -/
theorem HashAt.fill (h : HashAt i g alg s n q t) (hn : q / 64 = n) {v : Byte} {got : List Byte} (port : List Access)
    (hv : (padBytes g (message s))[q]? = some v) (hgot : got = (message s).take (q + 1)) :
    HashAt i g alg s n (q + 1) (fillByte v { t with port := port, got := got }) := by
  refine { h with position := congrArg (· + 1) h.position, got := hgot, block := fun j hj hlt => ?_ }
  have hset : (fillByte v { t with port := port, got := got }).blk[j] = if q % 64 = j then v else t.blk[j] := by
    simp only [fillByte, h.position, Vector.getElem_set]
  rw [hset]
  split
  · rw [show 64 * n + j = q by omega, List.getD_eq_getElem?_getD, hv]; rfl
  · exact h.block j hj (by omega)

/-- A full BLK is the block of the stream. -/
theorem HashAt.blk_eq (h : HashAt i g alg s n (64 * (n + 1)) t) : t.blk = streamBlock (padBytes g (message s)) n := by
  refine Vector.ext fun j hj => ?_
  rw [h.block j hj (by omega), streamBlock, Vector.getElem_ofFn]

/-- LOADW, STEP and ADD bring the chain one block on. -/
theorem HashAt.afterBlock (h : HashAt i g alg s n (64 * (n + 1)) t) :
    HashAt i g alg s (n + 1) (64 * (n + 1)) (afterBlock i alg t) := by
  have hf := h.toFrame.trans (frame_afterBlock i alg t)
  exact { hf with
    chain := by rw [afterBlock_h5, h.chain, h.blk_eq, chainWords_succ]
    count := by rw [afterBlock_blkcnt, h.count, BitVec.ofNat_add]; rfl
    result := by simp [h.result]
    position := by simp [h.position]
    padded := by simp [h.padded]
    index := by simp [h.index]
    unwritten := by simp [h.unwritten]
    got := by simp [h.got]
    block := fun j _ hlt => by omega }

/-- After the last block the digest can be written. -/
theorem HashAt.outAt (hi : hashOf i = some (g, alg)) (h : HashAt i g alg s (n + 1) (64 * (n + 1)) t)
    (hblk : t.blk = streamBlock (padBytes g (message s)) n) (hn : 64 * (n + 1) = padLen g (msgLen s)) :
    OutAt i s 0 t := by
  have hroom := lt_padLen g (msgLen s)
  have hblocks : padLen g (message s).length / 64 = n + 1 := by rw [length_message]; omega
  refine { h with regs := hashRegsFrame_iff.2 ⟨?_, ?_, ?_⟩, got := ?_, written := h.unwritten }
  · rw [outputOf_hash_h5 hi, hblocks, h.chain]
  · rw [outputOf_hash_blk hi, hblocks, hblk, Nat.add_sub_cancel]
  · rw [outputOf_hash_blkcnt hi, hblocks, h.count]
  · rw [h.got, List.take_of_length_le (by rw [length_message]; omega)]

/-- The accesses of a HASH that has read `q` bytes: the rest of its message, then its digest (20_memory.md R71). -/
def hashPlan (i : Instr) (s : State) (q : Nat) : List Access :=
  (List.range' q (msgLen s - q)).map (fun k => .read (srcBase s + k)) ++ writePlan s 0 (outBytes i s)

theorem portPlan_hash (hi : hashOf i = some (g, alg)) (s : State) : portPlan i s = hashPlan i s 0 := by
  simp [portPlan, geomOf_of_hashOf hi, isPad_of_hashOf hi, hashPlan, writePlan, List.range_eq_range']

theorem hashPlan_message (hq : q < msgLen s) :
    hashPlan i s q = .read (srcBase s + q) :: hashPlan i s (q + 1) := by
  obtain ⟨d, hd⟩ : ∃ d, msgLen s - q = d + 1 := ⟨msgLen s - q - 1, by omega⟩
  simp [hashPlan, hd, show msgLen s - (q + 1) = d by omega, List.range'_succ]

theorem hashPlan_tail (hq : msgLen s ≤ q) : hashPlan i s q = hashPlan i s (q + 1) := by
  simp [hashPlan, show msgLen s - q = 0 by omega, show msgLen s - (q + 1) = 0 by omega]

theorem hashPlan_digest (hq : msgLen s ≤ q) : hashPlan i s q = writePlan s 0 (outBytes i s) := by
  simp [hashPlan, show msgLen s - q = 0 by omega]

/-- A full block is compressed, and then FILL or OUT goes on. -/
theorem HashAt.reaches_full (hs : Started i s) (hi : hashOf i = some (g, alg)) (h : HashAt i g alg s n (64 * (n + 1)) t)
    (hp : t.phase = .loadw) (hn : 64 * n < padLen g (msgLen s))
    (hfill : ∀ u, HashAt i g alg s (n + 1) (64 * (n + 1)) u → u.phase = .fill → 64 * (n + 1) < padLen g (msgLen s) →
      Reaches u (outcome i s u.port (hashPlan i s (64 * (n + 1))))) :
    Reaches t (outcome i s t.port (hashPlan i s (64 * (n + 1)))) := by
  have hmod := padLen_mod_of_hashOf hi (msgLen s)
  have hroom := lt_padLen g (msgLen s)
  have hblock := h.afterBlock
  have hphase : (Refinement.afterBlock i alg t).phase = if 64 * (n + 1) < padLen g (msgLen s) then .fill else .out := by
    simp [afterAdd, hi, h.position, h.padded]
  rw [← afterBlock_port i alg t]
  refine (reaches_afterBlock hp (h.cmdword ▸ hs.decodes) (blockAlg_of_hashOf hi)).trans ?_
  by_cases hlast : 64 * (n + 1) < padLen g (msgLen s)
  · exact hfill _ hblock (by rw [hphase, if_pos hlast]) hlast
  · have hout := hblock.outAt hi ((afterBlock_blk i alg t).trans h.blk_eq) (by omega)
    have hpos := outBytes_pos_of_hashOf hi s
    rw [hashPlan_digest (by omega)]
    exact hout.reaches_out hs hi _ (by rw [hphase, if_neg hlast, if_neg (by omega)]) (by omega)

/-- After a byte has landed in BLK: a full block is compressed, else FILL goes on. -/
theorem HashAt.reaches_filled (hs : Started i s) (hi : hashOf i = some (g, alg)) (h : HashAt i g alg s (q / 64) (q + 1) t)
    (hp : t.phase = if (q + 1) % 64 = 0 then .loadw else .fill) (hq : q < padLen g (msgLen s))
    (hfill : ∀ u, HashAt i g alg s ((q + 1) / 64) (q + 1) u → u.phase = .fill → q + 1 < padLen g (msgLen s) →
      Reaches u (outcome i s u.port (hashPlan i s (q + 1)))) :
    Reaches t (outcome i s t.port (hashPlan i s (q + 1))) := by
  have hmod := padLen_mod_of_hashOf hi (msgLen s)
  by_cases hfull : (q + 1) % 64 = 0
  · obtain ⟨n, rfl⟩ : ∃ n, q = 64 * n + 63 := ⟨q / 64, by omega⟩
    rw [show (64 * n + 63) / 64 = n by omega] at h
    rw [show (64 * n + 63 + 1) / 64 = n + 1 by omega] at hfill
    exact HashAt.reaches_full hs hi h (by rw [hp, if_pos hfull]) (by omega) hfill
  · rw [if_neg hfull] at hp
    exact hfill t (by rwa [show (q + 1) / 64 = q / 64 by omega]) hp (by omega)

theorem engineStep_fill (hp : t.phase = .fill) (hd : decode t.eng.cmdword = .ok i) :
    engineStep t = tickFill i t := by
  simp only [engineStep, hp, tickWork, hd]

/-- Until OUT a HASH reads its source as it was at acceptance. -/
theorem HashAt.sourceByte_eq (h : HashAt i g alg s n q t) (a : Nat) : sourceByte t a = sourceByte s a := by
  simp only [sourceByte, h.raced, h.free, h.unwritten]

/-- FILL, byte by byte and block by block, to the end of the command. -/
theorem HashAt.reaches_fill (hs : Started i s) (hi : hashOf i = some (g, alg)) (d : Nat)
    (h : HashAt i g alg s (q / 64) q t) (hp : t.phase = .fill) (hq : q < padLen g (msgLen s))
    (hd : q + d = padLen g (msgLen s)) : Reaches t (outcome i s t.port (hashPlan i s q)) := by
  induction d generalizing q t with
  | zero => omega
  | succ d ih =>
    have hsrc := hs.src_le
    have hdec : decode t.eng.cmdword = .ok i := h.cmdword ▸ hs.decodes
    have hfilled (v : Byte) (got : List Byte) (port : List Access) (hv : (padBytes g (message s))[q]? = some v)
        (hgot : got = (message s).take (q + 1)) :
        Reaches (fillByte v { t with port := port, got := got }) (outcome i s port (hashPlan i s (q + 1))) := by
      refine (h.fill rfl port hv hgot).reaches_filled hs hi (by simp [fillByte, h.position]) hq ?_
      exact fun u hu hphase hlt => ih hu hphase hlt (by omega)
    by_cases hmsg : q < msgLen s
    · have hstep : engineStep t = engineRead (srcBase s + q) (fun v u => .next (fillByte v u)) t := by
        simp only [engineStep_fill hp hdec, tickFill, hi, h.position, h.padded, h.msgLen, h.srcBase]
        rw [if_neg (by omega), if_pos hmsg]
      have hbyte := getElem?_message hmsg
      rw [hashPlan_message hmsg]
      refine reaches_of_leadsTo (hstep ▸ leadsTo_read hs (h.inRun hi) (by omega) (.next (hfilled _ _ _ ?_ ?_)))
      · rw [getElem?_padBytes_message (by rwa [length_message]), hbyte, h.sourceByte_eq]
      · rw [List.take_add_one, hbyte, h.got, h.sourceByte_eq]; rfl
    · have hstep : engineStep t = .next (fillByte (padTail g (msgLen s) q) t) := by
        simp only [engineStep_fill hp hdec, tickFill, hi, h.position, h.padded, h.msgLen]
        rw [if_neg (by omega), if_neg hmsg]
      have hbyte := getElem?_padBytes_tail (g := g) (m := message s) (q := q) (by rw [length_message]; omega)
        (by rwa [length_message])
      rw [length_message] at hbyte
      have hgot : t.got = (message s).take (q + 1) := by
        rw [h.got, List.take_of_length_le (by rw [length_message]; omega),
          List.take_of_length_le (by rw [length_message]; omega)]
      rw [hashPlan_tail (by omega)]
      exact .head hstep (hfilled _ t.got t.port hbyte hgot)

theorem reaches_hash (hs : Started i s) (ha : Accepted s i) (hi : hashOf i = some (g, alg)) :
    Reaches s (outcome i s s.port (portPlan i s)) := by
  have hinit := engineStep_initH (s := checked i s) (firstPhase_of_hashOf hi) ha.2 (afterInit_of_hashOf hi)
  have hf : Frame s { initRegs alg (checked i s) with phase := .fill } :=
    { (frame_checked i s).trans (frame_initRegs alg _) with }
  have hstart : HashAt i g alg s 0 0 { initRegs alg (checked i s) with phase := .fill } :=
    { hf with
      chain := chainWords_zero alg _ s (checked i s) rfl
      count := by cases alg <;> rfl
      result := by cases alg <;> rfl
      position := by cases alg <;> rfl
      padded := by cases alg <;> simp [initRegs, checked, paddedLen, geomOf_of_hashOf hi]
      index := by cases alg <;> rfl
      unwritten := by cases alg <;> rfl
      got := by cases alg <;> rfl
      block := fun j _ hlt => by omega }
  have hport : (initRegs alg (checked i s)).port = s.port := by cases alg <;> rfl
  have hroom := lt_padLen g (msgLen s)
  have hfill := HashAt.reaches_fill hs hi _ hstart rfl (by omega) (Nat.zero_add _)
  rw [portPlan_hash hi, ← hport]
  exact .head (engineStep_check_passed ha hs.passes) (.head hinit hfill)

end

/-- Settles O59: CHECK and INIT_H, then FILL with a block at every 64th byte, then OUT along the plan of accesses, then
COMPLETE. -/
theorem engineStepsRefineHash : Obligations.EngineStepsRefineHash := by
  unfold Obligations.EngineStepsRefineHash
  intro s i ha hhash hmem
  obtain ⟨⟨g, alg⟩, hi⟩ := Option.ne_none_iff_exists'.1 hhash
  have hgeom : geomOf i ≠ none := by simp [geomOf_of_hashOf hi]
  exact exists_engineSteps_eq_exec ha hgeom hmem fun hs => reaches_hash hs ha hi

end Sys2Proof.Refinement

/-! ## The state: STATUS, CTRL, OUTLEN, ERRADDR and the invariant (10_state.md) -/

namespace Sys2Proof.StateRules

open Sys2Proof.Machine Sys2Proof.Refinement

/-! ### STATUS and CTRL writes -/

/-- Bits 1:0 of a CTRL write are what CTRL reads afterwards (10_state.md R28). -/
theorem ctrlWord_ctrlOfWord (v : Word) : ctrlWord (ctrlOfWord v) = v &&& 3 := by
  have hmask : v &&& 3 = (v &&& BitVec.twoPow 32 0) ||| (v &&& BitVec.twoPow 32 1) := by
    rw [show (3 : Word) = BitVec.twoPow 32 0 ||| BitVec.twoPow 32 1 by decide]
    ext j
    simp only [BitVec.getElem_and, BitVec.getElem_or, Bool.and_or_distrib_left]
  rw [hmask, BitVec.and_twoPow, BitVec.and_twoPow]
  rfl

/-- A flag written with 1 is cleared, one written with 0 is kept (10_state.md R27). -/
theorem statusW1c_bits (st : Status) (v : Word) :
    (statusW1c st v).done = (if v.getLsbD 1 then false else st.done) ∧
    (statusW1c st v).err = (if v.getLsbD 2 then false else st.err) ∧
    (statusW1c st v).ovr = (if v.getLsbD 3 then false else st.ovr) := by
  have hclear (b keep : Bool) : (keep && !b) = if b then false else keep := by cases b <;> simp
  exact ⟨hclear _ _, hclear _ _, hclear _ _⟩

/-- Settles O44: the write is taken by `step_hostWR`, and each flag is one of `statusW1c_bits`. -/
theorem statusWriteClears : Obligations.StatusWriteClears := by
  unfold Obligations.StatusWriteClears
  intro v s rest ha hrst
  refine ⟨_, step_hostWR .status v s rest ha hrst, ?_⟩
  obtain ⟨hdone, herr, hovr⟩ := statusW1c_bits s.status v
  exact ⟨rfl, hdone, herr, rfl, hovr, rfl⟩

/-- Settles O46: the write is taken by `step_hostWR`, and CTRL reads back by `ctrlWord_ctrlOfWord`. -/
theorem ctrlWriteTakesTwoBits : Obligations.CtrlWriteTakesTwoBits := by
  unfold Obligations.CtrlWriteTakesTwoBits
  intro v s rest ha hrst
  exact ⟨_, step_hostWR .ctrl v s rest ha hrst, rfl, rfl, ctrlWord_ctrlOfWord v, rfl⟩

/-! ### Reads of constants and of unlisted offsets -/

/-- Settles O47: none of the constants is a register that R249 leaves open while busy. -/
theorem constantRegisters : Obligations.ConstantRegisters := by
  unfold Obligations.ConstantRegisters
  intro s rest r v hmem ha hrst
  have hconst : unreadableWhileBusy r = false ∧ readReg r s = v := by
    simp only [List.mem_cons, Prod.mk.injEq, List.not_mem_nil, or_false] at hmem
    rcases hmem with ⟨rfl, rfl⟩ | ⟨rfl, rfl⟩ | ⟨rfl, rfl⟩ | ⟨rfl, rfl⟩ | ⟨rfl, rfl⟩ | ⟨rfl, rfl⟩ | ⟨rfl, rfl⟩ |
      ⟨rfl, rfl⟩ | ⟨rfl, rfl⟩ | ⟨rfl, rfl⟩ | ⟨rfl, rfl⟩ | ⟨rfl, rfl⟩ <;> exact ⟨rfl, rfl⟩
  obtain ⟨hsettled, hvalue⟩ := hconst
  rw [step_hostRD r s rest ha hrst (.inr hsettled), hvalue]
  rfl

theorem legalAccess_four {off : BitVec 12} (h : off.toNat % 4 = 0) : legalAccess 4 off = true := by
  simp [legalAccess, h]

/-- Settles O48: the access is legal, and no register is found at its offset. -/
theorem unlistedOffsetsAreRazWi : Obligations.UnlistedOffsetsAreRazWi := by
  unfold Obligations.UnlistedOffsetsAreRazWi
  intro off v s halign hun hrst
  have hlegal := legalAccess_four halign
  have hnone := regAt_unlisted off hun
  constructor
  · simp [hostRead, hlegal, readIsFree, readOffset, hnone, hrst, reply]
  · simp [hostWrite, hlegal, writeOffset, hnone, hrst, reply]

/-! ### Reset -/

theorem atReset_reset : AtReset State.reset :=
  ⟨rfl, rfl, rfl, rfl, rfl, rfl, rfl, rfl, rfl, rfl, rfl, rfl, rfl, rfl, rfl, rfl, rfl,
    fun _ => Vector.getElem_replicate _, rfl, rfl⟩

/-- An asserted reset leaves the block as power-on reset does (70_reset_and_hazards.md R240). -/
theorem atReset_driveRst (s : State) : AtReset (driveRst true s) := atReset_reset

/-- Settles O52: both resets leave the block in the same values. -/
theorem resetClearsTheBlock : Obligations.ResetClearsTheBlock := by
  unfold Obligations.ResetClearsTheBlock
  refine ⟨atReset_reset, fun s rest ha => ⟨driveRst true { s with agenda := rest }, ?_, atReset_driveRst _⟩⟩
  simp only [step, ha, perform]

/-- Settles O54: right after reset the engine is idle, memory is empty and nothing is raced. -/
theorem invariantAtReset : Obligations.InvariantAtReset := by
  unfold Obligations.InvariantAtReset
  exact
    { memory := ⟨.nil, nofun⟩
      status := ⟨by decide, nofun, fun _ => rfl, nofun⟩
      latch := ⟨nofun, fun _ => rfl⟩
      reset := nofun
      sequencer := trivial }

/-! ### Everything a command can do -/

/-- The work of a command that passes its checks and whose accesses all succeed. -/
def workOf (i : Instr) (s : State) : State :=
  match i with
  | .initMd5 => initRegs .md5 s
  | .initSha1 => initRegs .sha1 s
  | .compressMd5 => compressRegs .md5 s
  | .compressSha1 => compressRegs .sha1 s
  | .nop | .hashMd5 | .hashSha1 | .padP512 | .padP1024 | .padP512le => outputOf i (message s) s

theorem frame_workOf (i : Instr) (s : State) : Frame s (workOf i s) := by
  cases i <;> simp only [workOf, frame_initRegs, frame_compressRegs, frame_outputOf]

/-- A command without accesses checks nothing and ends with its work. -/
theorem runChecked_of_no_message {i : Instr} (hg : geomOf i = none) (work : State → State) (s : State) :
    runChecked i work s = complete i none (work s) := by
  have hplan : portPlan i s = [] := by simp [portPlan, hg]
  rw [runChecked_quiet i work s (checkOperands_of_no_message hg s) (by simp [hplan]), hplan, List.append_nil]

/-- Every command is its checks, its accesses and its work. -/
theorem exec_eq_runChecked_workOf (i : Instr) (s : State) : exec i s = .next (runChecked i (workOf i) s) := by
  cases i with
  | hashMd5 | hashSha1 | padP512 | padP1024 | padP512le => rfl
  | nop | initMd5 | initSha1 | compressMd5 | compressSha1 => rw [runChecked_of_no_message rfl]; rfl

section
variable {i : Instr} {s t u : State} {r : Option CmdError}

/-- How a command ends: it fails a check, it succeeds, or an access `x`, its last, errs. -/
theorem exec_cases (h : exec i s = .next t) :
    (∃ e, (e = .size ∨ e = .addr) ∧ t = complete i (some e) s) ∨
    (checkOperands i s = none ∧ t = complete i none (workOf i { s with port := s.port ++ portPlan i s })) ∨
    (∃ before x, errs s.busMap x = true ∧
      t = complete i (some (.bus (accessAddr x))) { s with port := s.port ++ (before ++ [x]) }) := by
  rw [exec_eq_runChecked_workOf] at h
  cases h
  obtain ⟨e, hc, heq⟩ | ⟨hc, -, heq⟩ | ⟨before, x, -, -, -, -, hx, heq⟩ := runChecked_cases i (workOf i) s
  · exact .inl ⟨e, checkOperands_some i s e hc, heq⟩
  · exact .inr (.inl ⟨hc, heq⟩)
  · exact .inr (.inr ⟨before, x, hx, heq⟩)

/-! ### Completion, seen from the start of the step -/

/-- The step from `s` to `t` ended a command with result `r` (43_control.md R196). -/
structure Completed (r : Option CmdError) (s t : State) : Prop where
  phase : t.phase = .idle
  status : t.status = statusComplete r s.status
  erraddr : t.erraddr = errAddrAfter r s.erraddr
  raced : t.raced = []

theorem completed_complete (hf : Frame s u) : Completed r s (complete i r u) where
  phase := complete_phase i r u
  status := (complete_status i r u).trans (by rw [hf.status])
  erraddr := (complete_erraddr i r u).trans (by rw [hf.erraddr])
  raced := complete_raced i r u

theorem completed_completeIllegal (s : State) : Completed (some .cmd) s (completeIllegal s) := ⟨rfl, rfl, rfl, rfl⟩

theorem frame_port (s : State) (port : List Access) : Frame s { s with port := port } := by constructor <;> rfl

theorem completed_of_exec (h : exec i s = .next t) : ∃ r, Completed r s t := by
  obtain ⟨e, -, rfl⟩ | ⟨-, rfl⟩ | ⟨before, x, -, rfl⟩ := exec_cases h
  · exact ⟨_, completed_complete (.refl s)⟩
  · exact ⟨_, completed_complete ((frame_port s _).trans (frame_workOf i _))⟩
  · exact ⟨_, completed_complete (frame_port s _)⟩

theorem completed_of_runAccepted (h : runAccepted s = .next t) : ∃ r, Completed r s t := by
  unfold runAccepted at h
  split at h
  · exact completed_of_exec h
  · cases h
    exact ⟨_, completed_completeIllegal s⟩

theorem statusComplete_ovr (r : Option CmdError) (st : Status) : (statusComplete r st).ovr = st.ovr := by
  cases r <;> rfl

/-- Only BUS writes ERRADDR, and it leaves ERR = 1 and ERRCODE = 4 (10_state.md R34). -/
theorem Completed.erraddr_cases (h : Completed r s t) :
    t.erraddr = s.erraddr ∨ (t.phase = .idle ∧ t.status.err = true ∧ t.status.errcode = 4) := by
  rcases r with _ | e
  · exact .inl h.erraddr
  · cases e with
    | size | cmd | addr => exact .inl h.erraddr
    | bus a => exact .inr ⟨h.phase, by rw [h.status]; rfl, by rw [h.status]; rfl⟩

/-! ### OUTLEN and ERRADDR at the end of a command -/

/-- OUTLEN is written only by a success (10_state.md R32). -/
theorem exec_outlen (h : exec i s = .next t) (herr : s.status.err = false) :
    (t.status.err = true ∧ t.outlen = s.outlen) ∨
    (t.status.err = false ∧ checkOperands i s = none ∧ t.outlen = BitVec.ofNat 64 (outBytes i s)) := by
  obtain ⟨e, -, rfl⟩ | ⟨hc, rfl⟩ | ⟨before, x, -, rfl⟩ := exec_cases h
  · exact .inl (by simp [statusComplete])
  · have hf := (frame_port s (s.port ++ portPlan i s)).trans (frame_workOf i _)
    exact .inr ⟨by simpa [statusComplete, hf.status] using herr, hc, by simp [hf.outBytes]⟩
  · exact .inl (by simp [statusComplete])

/-- The padded length of a PAD that passes its checks fits OUTLEN (60_exceptions.md R218). -/
theorem outBytes_lt_of_isPad (hc : checkOperands i s = none) (hp : isPad i = true) : outBytes i s < 2 ^ 64 := by
  obtain ⟨g, hg⟩ : ∃ g, geomOf i = some g := by cases i <;> simp_all [isPad, geomOf]
  have hrange : rangeFails i s = false := by
    simp only [checkOperands, hg] at hc
    split at hc
    · cases hc
    · simpa using hc
  simp only [rangeFails, hp, Bool.true_and, Bool.or_eq_false_iff] at hrange
  have hfit : ¬ Config.addrLimit - 1 < outBytes i s := of_decide_eq_false hrange.2
  simp only [Config.addrLimit] at hfit
  omega

theorem outBytes_of_no_output (hh : hashOf i = none) (hp : isPad i = false) : outBytes i s = 0 := by
  cases i <;> simp_all [hashOf, isPad, outBytes]

/-- Settles O9: acceptance clears OUTLEN and ERR, and only a success writes OUTLEN. -/
theorem outlenCountsTheOutput : Obligations.OutlenCountsTheOutput := by
  unfold Obligations.OutlenCountsTheOutput
  intro i w s t h
  refine ⟨accept_outlen w s, fun herr => ?_, fun herr => ?_, rfl⟩
  · obtain ⟨-, hout⟩ | ⟨hok, -⟩ := exec_outlen h rfl
    · exact hout
    · simp [hok] at herr
  · obtain ⟨hfail, -⟩ | ⟨-, hc, hout⟩ := exec_outlen h rfl
    · simp [hfail] at herr
    · refine ⟨?_, ?_, ?_, fun hh hp => ?_⟩
      · rintro rfl
        exact hout
      · rintro rfl
        exact hout
      · rintro g rfl
        have hpad : isPad (.pad g) = true := by cases g <;> rfl
        have hlen : outBytes (.pad g) (accept w s) = padLen g s.len.toNat := by cases g <;> rfl
        rw [hout, BitVec.toNat_ofNat, Nat.mod_eq_of_lt (outBytes_lt_of_isPad hc hpad), hlen]
      · rw [hout, outBytes_of_no_output hh hp]
        rfl

theorem exec_erraddr (h : exec i s = .next t) (herr : s.status.err = false) :
    (t.status.err = true ∧ t.status.errcode = 4 →
      ∃ x, t.port.getLast? = some x ∧ errs s.busMap x = true ∧ t.erraddr = BitVec.ofNat 64 (accessAddr x)) ∧
    (¬(t.status.err = true ∧ t.status.errcode = 4) → t.erraddr = s.erraddr) := by
  obtain ⟨e, he, rfl⟩ | ⟨-, rfl⟩ | ⟨before, x, hx, rfl⟩ := exec_cases h
  · rcases he with rfl | rfl <;> simp [statusComplete, errCode, errAddrAfter]
  · have hf := (frame_port s (s.port ++ portPlan i s)).trans (frame_workOf i _)
    simp [statusComplete, errAddrAfter, hf.status, hf.erraddr, herr]
  · exact ⟨fun _ => ⟨x, by simp, hx, by simp [errAddrAfter]⟩, by simp [statusComplete, errCode]⟩

end

/-! ### One engine step: it keeps the frame of the running command, or ends it -/

section
variable {i : Instr} {s t : State} {a : Nat}

theorem engineRead_frame {use : Byte → State → Host.Outcome State Fault Refusal}
    (huse : ∀ v port got, use v { s with port := port, got := got } = .next t → Frame s t)
    (h : engineRead a use s = .next t) : Frame s t := by
  unfold engineRead at h
  split at h
  · cases h
  · split at h
    · cases h
      exact (frame_port s _).trans (frame_raiseError _ _)
    · exact huse _ _ _ h

theorem engineWrite_frame {next : State → State} {v : Byte}
    (hnext : ∀ port mem, Frame s (next { s with port := port, mem := mem }))
    (h : engineWrite a v next s = .next t) : Frame s t := by
  unfold engineWrite at h
  split at h
  · cases h
  · split at h
    · cases h
      exact (frame_port s _).trans (frame_raiseError _ _)
    · cases h
      exact hnext _ _

theorem tickCheck_frame (h : tickCheck s = .next t) : Frame s t := by
  unfold tickCheck at h
  split at h
  · cases h
    exact frame_raiseError _ s
  · split at h
    · cases h
      exact frame_raiseError _ s
    · cases h
      exact frame_checked _ s

theorem tickInitH_frame (h : tickInitH i s = .next t) : Frame s t := by
  unfold tickInitH at h
  split at h
  · cases h
    exact { frame_initRegs .md5 s with }
  · cases h
    exact { frame_initRegs .sha1 s with }
  · cases h

theorem frame_fillByte (v : Byte) (s : State) : Frame s (fillByte v s) := by constructor <;> rfl

theorem tickFill_frame (h : tickFill i s = .next t) : Frame s t := by
  unfold tickFill at h
  split at h
  · cases h
  · split at h
    · cases h
    · split at h
      · refine engineRead_frame (fun v port got hu => ?_) h
        cases hu
        constructor <;> rfl
      · cases h
        exact frame_fillByte _ s

theorem tickLoadw_frame (h : tickLoadw i s = .next t) : Frame s t := by
  unfold tickLoadw at h
  split at h <;> cases h <;> constructor <;> rfl

theorem tickStep_frame (h : tickStep i s = .next t) : Frame s t := by
  unfold tickStep at h
  split at h
  · split at h <;> cases h
    constructor <;> rfl
  · split at h <;> cases h
    constructor <;> rfl
  · cases h

theorem tickAdd_frame (h : tickAdd i s = .next t) : Frame s t := by
  unfold tickAdd at h
  split at h <;> cases h <;> constructor <;> rfl

theorem tickOut_frame (h : tickOut i s = .next t) : Frame s t := by
  unfold tickOut at h
  split at h
  · cases h
  · split at h
    · cases h
    · exact engineWrite_frame (fun port mem => by constructor <;> rfl) h

theorem tickCopy_frame (h : tickCopy i s = .next t) : Frame s t := by
  unfold tickCopy at h
  split at h
  · cases h
  · split at h
    · refine engineRead_frame (fun v port got hu => ?_) h
      have hread : Frame s { s with port := port, got := got } := by constructor <;> rfl
      exact hread.trans (engineWrite_frame (fun port mem => by constructor <;> rfl) hu)
    · cases h
      constructor <;> rfl

theorem tickPadw_frame (h : tickPadw i s = .next t) : Frame s t := by
  unfold tickPadw at h
  split at h
  · cases h
  · split at h
    · cases h
    · split at h
      · exact engineWrite_frame (fun port mem => by constructor <;> rfl) h
      · cases h
        constructor <;> rfl

theorem tickWork_cases {p : Phase} {tick : Instr → State → Host.Outcome State Fault Refusal}
    (h : tickWork p tick s = .next t) : ∃ i, tick i s = .next t := by
  unfold tickWork at h
  split at h
  · exact ⟨_, h⟩
  · cases h

/-- COMPLETE ends the command; every other phase keeps its frame. -/
theorem engineStep_frame (h : engineStep s = .next t) (hp : s.phase ≠ .complete) : Frame s t := by
  unfold engineStep at h
  cases hphase : s.phase <;> simp only [hphase] at h
  case idle => cases h; exact .refl s
  case check => exact tickCheck_frame h
  case initH => obtain ⟨i, hi⟩ := tickWork_cases h; exact tickInitH_frame hi
  case fill => obtain ⟨i, hi⟩ := tickWork_cases h; exact tickFill_frame hi
  case loadw => obtain ⟨i, hi⟩ := tickWork_cases h; exact tickLoadw_frame hi
  case step => obtain ⟨i, hi⟩ := tickWork_cases h; exact tickStep_frame hi
  case add => obtain ⟨i, hi⟩ := tickWork_cases h; exact tickAdd_frame hi
  case out => obtain ⟨i, hi⟩ := tickWork_cases h; exact tickOut_frame hi
  case copy => obtain ⟨i, hi⟩ := tickWork_cases h; exact tickCopy_frame hi
  case padw => obtain ⟨i, hi⟩ := tickWork_cases h; exact tickPadw_frame hi
  case complete => exact absurd hphase hp

theorem completed_of_tickComplete (h : tickComplete s = .next t) : ∃ r, Completed r s t := by
  unfold tickComplete at h
  split at h
  · cases h
    exact ⟨_, completed_complete (frame_settleRaces _ s)⟩
  · cases h
    exact ⟨_, completed_completeIllegal s⟩

/-- The engine's move from `s` to `t`: inside a command or idle, or a command's end. -/
def EngineMove (s t : State) : Prop := Frame s t ∨ (s.phase ≠ .idle ∧ ∃ r, Completed r s t)

theorem engineMove_of_engineStep (h : engineStep s = .next t) : EngineMove s t := by
  by_cases hp : s.phase = .complete
  · rw [engineStep, hp] at h
    exact .inr ⟨by simp [hp], completed_of_tickComplete h⟩
  · exact .inl (engineStep_frame h hp)

theorem engineMove_of_engineAct (h : engineAct s = .next t) : EngineMove s t := by
  unfold engineAct at h
  split at h
  · next hp => exact .inr ⟨by simp [hp], completed_of_runAccepted h⟩
  · exact engineMove_of_engineStep h

/-! ### One step of the machine -/

/-- The step from `s` to `t` touches only the host's own record, system memory, its map and its races, the level of reset
and the free draw. -/
def BlockKept (s t : State) : Prop :=
  t = { s with
    agenda := t.agenda, replies := t.replies, mem := t.mem, busMap := t.busMap, rst := t.rst, raced := t.raced
    free := t.free }

theorem BlockKept.status (h : BlockKept s t) : t.status = s.status := by rw [h]

theorem BlockKept.erraddr (h : BlockKept s t) : t.erraddr = s.erraddr := by rw [h]

theorem blockKept_hostRead (width : Nat) (off : BitVec 12) (s : State) (rest : List Event) :
    BlockKept s (hostRead width off { s with agenda := rest }) := by
  unfold hostRead
  split
  · split <;> rfl
  · rfl

theorem blockKept_hostPoll (rest : List Event) (s : State) : BlockKept s (hostPoll rest s) := by
  unfold hostPoll
  split
  · rfl
  · exact blockKept_hostRead _ _ s rest

theorem blockKept_hostMemRead (a : Word64) (s : State) (rest : List Event) :
    BlockKept s (hostMemRead a { s with agenda := rest }) := by
  unfold hostMemRead
  split <;> rfl

/-- A register is found only at its own offset. -/
theorem offsetOf_of_regAt {off : BitVec 12} {r : Reg} (h : regAt off = some r) : offsetOf r = off := by
  simpa using List.find?_some h

/-- A host write keeps the block, or it is the write of a register at that register's offset. -/
theorem hostWrite_cases (width : Nat) (off : BitVec 12) (v : Word) (s : State) (rest : List Event) :
    BlockKept s (hostWrite width off v { s with agenda := rest }) ∨
    ∃ r, Event.wr width off v = hostWR r v ∧
      hostWrite width off v { s with agenda := rest } = reply .done (writeReg r v { s with agenda := rest }) := by
  unfold hostWrite
  split
  · next hlegal =>
    split
    · exact .inl rfl
    · unfold writeOffset
      split
      · next r hr =>
        simp only [legalAccess, Bool.and_eq_true, beq_iff_eq] at hlegal
        exact .inr ⟨r, by rw [hostWR, offsetOf_of_regAt hr, hlegal.1], rfl⟩
      · exact .inl rfl
  · exact .inl rfl

/-- Everything a step can do: the engine moves, the host writes a register, reset is asserted, or the block is kept. -/
theorem step_cases (h : step s = .next t) :
    (∃ agenda, EngineMove { s with agenda := agenda } t) ∨
    (∃ r v rest, s.agenda = hostWR r v :: rest ∧ t = reply .done (writeReg r v { s with agenda := rest })) ∨
    (∃ rest, s.agenda = .setRst true :: rest ∧ t = driveRst true { s with agenda := rest }) ∨
    BlockKept s t := by
  cases hag : s.agenda with
  | nil =>
    rw [step, hag] at h
    exact .inl ⟨s.agenda, engineMove_of_engineAct h⟩
  | cons e rest =>
    rw [step, hag] at h
    cases e with
    | rd width off => cases h; exact .inr (.inr (.inr (blockKept_hostRead width off s rest)))
    | wr width off v =>
      cases h
      obtain hkept | ⟨r, hr, heq⟩ := hostWrite_cases width off v s rest
      · exact .inr (.inr (.inr hkept))
      · exact .inr (.inl ⟨r, v, rest, by rw [hr], heq⟩)
    | wait =>
      simp only [perform] at h
      split at h
      · exact .inl ⟨s.agenda, engineMove_of_engineAct h⟩
      · cases h; exact .inr (.inr (.inr (blockKept_hostPoll rest s)))
    | memRead a => cases h; exact .inr (.inr (.inr (blockKept_hostMemRead a s rest)))
    | memWrite a v => cases h; exact .inr (.inr (.inr rfl))
    | setRst level =>
      cases level with
      | true => cases h; exact .inr (.inr (.inl ⟨rest, rfl, rfl⟩))
      | false => cases h; exact .inr (.inr (.inr rfl))
    | setBusMap m => cases h; exact .inr (.inr (.inr rfl))
    | engine => exact .inl ⟨rest, engineMove_of_engineStep h⟩

/-! ### ERRADDR and OVR over every step -/

theorem idleOnly_erraddr {w : State} (h : w.erraddr = s.erraddr) : (idleOnly s w).erraddr = s.erraddr := by
  unfold idleOnly
  split
  · rfl
  · exact h

theorem idleOnly_status {w : State} (h : w.status = s.status) : (idleOnly s w).status = s.status := by
  unfold idleOnly
  split
  · rfl
  · exact h

theorem writeCmd_erraddr (v : Word) (s : State) : (writeCmd v s).erraddr = s.erraddr := by
  unfold writeCmd
  split <;> rfl

/-- The host cannot write ERRADDR (10_state.md R34). -/
theorem writeReg_erraddr (r : Reg) (v : Word) (s : State) : (writeReg r v s).erraddr = s.erraddr := by
  cases r with
  | cmd => exact writeCmd_erraddr v s
  | srcLo | srcHi | lenLo | lenHi | dstLo | dstHi | h0 | h1 | h2 | h3 | h4 | blkw => exact idleOnly_erraddr rfl
  | _ => rfl

/-- A register's write leaves OVR alone, or it is a STATUS write or a CMD write while busy (10_state.md R27,
70_reset_and_hazards.md R247). -/
theorem writeReg_ovr (r : Reg) (v : Word) (s : State) :
    (writeReg r v s).status.ovr = s.status.ovr ∨
    (r = .status ∧ (writeReg r v s).status.ovr = (s.status.ovr && !v.getLsbD 3)) ∨
    (r = .cmd ∧ s.status.busy = true ∧ (writeReg r v s).status.ovr = true) := by
  cases r with
  | status => exact .inr (.inl ⟨rfl, rfl⟩)
  | cmd =>
    cases hb : s.status.busy with
    | true => exact .inr (.inr ⟨rfl, rfl, by simp [writeReg, writeCmd, hb, statusOverrun]⟩)
    | false => exact .inl (by simp [writeReg, writeCmd, hb, statusAccept])
  | srcLo | srcHi | lenLo | lenHi | dstLo | dstHi | h0 | h1 | h2 | h3 | h4 | blkw =>
    exact .inl (congrArg Status.ovr (idleOnly_status rfl))
  | _ => exact .inl rfl

/-- Settles O10: the merged command by its three endings, a step by the four things it can do. -/
theorem errAddrOnlyByBus : Obligations.ErrAddrOnlyByBus := by
  unfold Obligations.ErrAddrOnlyByBus
  refine ⟨fun i s t h herr => exec_erraddr h herr, fun s t h => ?_⟩
  obtain ⟨agenda, hf | ⟨hp, r, hr⟩⟩ | ⟨r, v, rest, -, rfl⟩ | ⟨rest, hreset, -⟩ | hkept := step_cases h
  · exact .inl hf.erraddr
  · exact hr.erraddr_cases.imp id fun hbus => .inl ⟨hp, hbus⟩
  · exact .inl (writeReg_erraddr r v _)
  · exact .inr (.inr ⟨rest, hreset⟩)
  · exact .inl hkept.erraddr

theorem EngineMove.ovr (h : EngineMove s t) : t.status.ovr = s.status.ovr := by
  obtain hf | ⟨-, r, hr⟩ := h
  · rw [hf.status]
  · rw [hr.status, statusComplete_ovr]

/-- OVR over every step: kept, cleared by a STATUS write, set by a CMD write while busy, or cleared by reset. -/
theorem step_ovr (h : step s = .next t) :
    t.status.ovr = s.status.ovr ∨
    (∃ v rest, s.agenda = hostWR .status v :: rest ∧ t.status.ovr = (s.status.ovr && !v.getLsbD 3)) ∨
    (∃ w rest, s.agenda = hostWR .cmd w :: rest ∧ s.status.busy = true ∧ t.status.ovr = true) ∨
    ((∃ rest, s.agenda = .setRst true :: rest) ∧ t.status.ovr = false) := by
  obtain ⟨agenda, hmove⟩ | ⟨r, v, rest, ha, rfl⟩ | ⟨rest, ha, rfl⟩ | hkept := step_cases h
  · exact .inl hmove.ovr
  · obtain hovr | ⟨rfl, hovr⟩ | ⟨rfl, hbusy, hovr⟩ := writeReg_ovr r v { s with agenda := rest }
    · exact .inl hovr
    · exact .inr (.inl ⟨v, rest, ha, hovr⟩)
    · exact .inr (.inr (.inl ⟨v, rest, ha, hbusy, hovr⟩))
  · exact .inr (.inr (.inr ⟨⟨rest, ha⟩, rfl⟩))
  · exact .inl (by rw [hkept.status])

/-- Settles O45: only the host's writes to STATUS and CMD and reset touch OVR. -/
theorem ovrChangesOnlyByTheHost : Obligations.OvrChangesOnlyByTheHost := by
  unfold Obligations.OvrChangesOnlyByTheHost
  intro s t h
  obtain hkept | ⟨v, rest, ha, hovr⟩ | ⟨w, rest, ha, hbusy, hovr⟩ | ⟨hreset, hovr⟩ := step_ovr h
  · exact ⟨fun hs ht => by simp [hkept, hs] at ht, fun hs ht => by simp [hkept, hs] at ht⟩
  · exact ⟨fun hs ht => .inl ⟨v, rest, ha, by simpa [hovr, hs] using ht⟩, fun hs ht => by simp [hovr, hs] at ht⟩
  · exact ⟨fun _ ht => by simp [hovr] at ht, fun _ _ => ⟨hbusy, w, rest, ha⟩⟩
  · exact ⟨fun _ _ => .inr hreset, fun _ ht => by simp [hovr] at ht⟩

end

/-! ### CTRL and the running command (10_state.md R44, 70_reset_and_hazards.md R248) -/

/-- The state with CTRL replaced. -/
def withCtrl (c : Ctrl) (s : State) : State := { s with ctrl := c }

/-- The outcome with its next state changed by `f`. -/
def mapNext (f : State → State) : Host.Outcome State Fault Refusal → Host.Outcome State Fault Refusal
  | .next s => .next (f s)
  | .fault r => .fault r
  | .refused r => .refused r

section
variable (c : Ctrl) (i : Instr) (s : State)

theorem withCtrl_eng : (withCtrl c s).eng = s.eng := (rfl)
theorem withCtrl_phase : (withCtrl c s).phase = s.phase := (rfl)
theorem withCtrl_busMap : (withCtrl c s).busMap = s.busMap := (rfl)
theorem msgLen_withCtrl : msgLen (withCtrl c s) = msgLen s := (rfl)
theorem padOverlaps_withCtrl : padOverlaps i (withCtrl c s) = padOverlaps i s := (rfl)
theorem portPlan_withCtrl : portPlan i (withCtrl c s) = portPlan i s := (rfl)
theorem sourceByte_withCtrl (a : Nat) : sourceByte (withCtrl c s) a = sourceByte s a := (rfl)
theorem sourceRaced_withCtrl : sourceRaced (withCtrl c s) = sourceRaced s := (rfl)
theorem racedMessage_withCtrl : racedMessage (withCtrl c s) = racedMessage s := (rfl)

theorem checkOperands_withCtrl : checkOperands i (withCtrl c s) = checkOperands i s := (rfl)

theorem outputOf_withCtrl (m : List Byte) : outputOf i m (withCtrl c s) = withCtrl c (outputOf i m s) := by
  cases i <;> rfl

theorem workOf_withCtrl : workOf i (withCtrl c s) = withCtrl c (workOf i s) := by
  cases i <;> rfl

theorem scrambleRegs_withCtrl : scrambleRegs i (withCtrl c s) = withCtrl c (scrambleRegs i s) := by
  cases i <;> rfl

theorem unsettle_withCtrl (r : Option CmdError) : unsettle i r (withCtrl c s) = withCtrl c (unsettle i r s) := by
  rcases r with _ | e
  · simp only [unsettle, padOverlaps_withCtrl]
    split <;> rfl
  · cases e with
    | size | cmd | addr => rfl
    | bus a => simp only [unsettle, scrambleRegs_withCtrl]; rfl

theorem complete_withCtrl (r : Option CmdError) : complete i r (withCtrl c s) = withCtrl c (complete i r s) := by
  simp only [complete, unsettle_withCtrl]
  rfl

theorem runChecked_withCtrl : runChecked i (workOf i) (withCtrl c s) = withCtrl c (runChecked i (workOf i) s) := by
  have hend (port : List Access) (r : Option CmdError) :
      complete i r { withCtrl c s with port := port } = withCtrl c (complete i r { s with port := port }) :=
    complete_withCtrl c i { s with port := port } r
  have hwork (port : List Access) :
      complete i none (workOf i { withCtrl c s with port := port }) =
        withCtrl c (complete i none (workOf i { s with port := port })) :=
    (congrArg _ (workOf_withCtrl c i { s with port := port })).trans (complete_withCtrl c i _ none)
  simp only [runChecked, checkOperands_withCtrl, portPlan_withCtrl, withCtrl_busMap]
  split
  · exact complete_withCtrl c i s _
  · split
    · exact hend _ _
    · exact hwork _

/-- The merged command neither reads nor writes CTRL. -/
theorem exec_withCtrl : exec i (withCtrl c s) = mapNext (withCtrl c) (exec i s) := by
  simp only [exec_eq_runChecked_workOf, runChecked_withCtrl, mapNext]

/-! ### CTRL and one engine step -/

theorem engineRead_withCtrl (a : Nat) {use use' : Byte → State → Host.Outcome State Fault Refusal}
    (huse : ∀ v u, use' v (withCtrl c u) = mapNext (withCtrl c) (use v u)) :
    engineRead a use' (withCtrl c s) = mapNext (withCtrl c) (engineRead a use s) := by
  simp only [engineRead, sourceByte_withCtrl, withCtrl_busMap]
  split
  · rfl
  · split
    · rfl
    · exact huse _ { s with port := s.port ++ [.read a], got := s.got ++ [sourceByte s a] }

theorem engineWrite_withCtrl (a : Nat) (v : Byte) {next next' : State → State}
    (hnext : ∀ u, next' (withCtrl c u) = withCtrl c (next u)) :
    engineWrite a v next' (withCtrl c s) = mapNext (withCtrl c) (engineWrite a v next s) := by
  simp only [engineWrite, withCtrl_busMap]
  split
  · rfl
  · split
    · rfl
    · exact congrArg _ (hnext { s with port := s.port ++ [.write a], mem := writeByte s.mem a v })

theorem tickCheck_withCtrl : tickCheck (withCtrl c s) = mapNext (withCtrl c) (tickCheck s) := by
  simp only [tickCheck, withCtrl_eng, checkOperands_withCtrl]
  split
  · rfl
  · split <;> rfl

theorem tickInitH_withCtrl : tickInitH i (withCtrl c s) = mapNext (withCtrl c) (tickInitH i s) := by
  unfold tickInitH
  split <;> rfl

theorem tickFill_withCtrl : tickFill i (withCtrl c s) = mapNext (withCtrl c) (tickFill i s) := by
  simp only [tickFill, withCtrl_eng, msgLen_withCtrl]
  split
  · rfl
  · split
    · rfl
    · split
      · exact engineRead_withCtrl c s _ fun v u => rfl
      · rfl

theorem tickLoadw_withCtrl : tickLoadw i (withCtrl c s) = mapNext (withCtrl c) (tickLoadw i s) := by
  unfold tickLoadw
  split <;> rfl

theorem tickStep_withCtrl : tickStep i (withCtrl c s) = mapNext (withCtrl c) (tickStep i s) := by
  simp only [tickStep, withCtrl_eng]
  split
  · split <;> rfl
  · split <;> rfl
  · rfl

theorem tickAdd_withCtrl : tickAdd i (withCtrl c s) = mapNext (withCtrl c) (tickAdd i s) := by
  unfold tickAdd
  split <;> rfl

theorem tickOut_withCtrl : tickOut i (withCtrl c s) = mapNext (withCtrl c) (tickOut i s) := by
  have hbytes (alg : Alg) : digestBytes (withCtrl c s) alg = digestBytes s alg := by cases alg <;> rfl
  simp only [tickOut, withCtrl_eng, hbytes]
  split
  · rfl
  · split
    · rfl
    · exact engineWrite_withCtrl c s _ _ fun u => rfl

theorem tickCopy_withCtrl : tickCopy i (withCtrl c s) = mapNext (withCtrl c) (tickCopy i s) := by
  simp only [tickCopy, withCtrl_eng, msgLen_withCtrl]
  split
  · rfl
  · split
    · exact engineRead_withCtrl c s _ fun v u => engineWrite_withCtrl c u _ _ fun u' => rfl
    · rfl

theorem tickPadw_withCtrl : tickPadw i (withCtrl c s) = mapNext (withCtrl c) (tickPadw i s) := by
  simp only [tickPadw, withCtrl_eng, msgLen_withCtrl]
  split
  · rfl
  · split
    · rfl
    · split
      · exact engineWrite_withCtrl c s _ _ fun u => rfl
      · rfl

theorem settleRaces_withCtrl : settleRaces i (withCtrl c s) = withCtrl c (settleRaces i s) := by
  simp only [settleRaces, sourceRaced_withCtrl, racedMessage_withCtrl, withCtrl_eng, outputOf_withCtrl]
  split <;> rfl

theorem tickComplete_withCtrl : tickComplete (withCtrl c s) = mapNext (withCtrl c) (tickComplete s) := by
  simp only [tickComplete, withCtrl_eng, settleRaces_withCtrl, complete_withCtrl]
  split <;> rfl

theorem tickWork_withCtrl (p : Phase) {tick : Instr → State → Host.Outcome State Fault Refusal}
    (htick : ∀ i, tick i (withCtrl c s) = mapNext (withCtrl c) (tick i s)) :
    tickWork p tick (withCtrl c s) = mapNext (withCtrl c) (tickWork p tick s) := by
  simp only [tickWork, withCtrl_eng]
  split
  · exact htick _
  · rfl

/-- No engine step reads or writes CTRL. -/
theorem engineStep_withCtrl : engineStep (withCtrl c s) = mapNext (withCtrl c) (engineStep s) := by
  simp only [engineStep, withCtrl_phase]
  cases s.phase with
  | idle => rfl
  | check => exact tickCheck_withCtrl c s
  | initH => exact tickWork_withCtrl c s _ fun i => tickInitH_withCtrl c i s
  | fill => exact tickWork_withCtrl c s _ fun i => tickFill_withCtrl c i s
  | loadw => exact tickWork_withCtrl c s _ fun i => tickLoadw_withCtrl c i s
  | step => exact tickWork_withCtrl c s _ fun i => tickStep_withCtrl c i s
  | add => exact tickWork_withCtrl c s _ fun i => tickAdd_withCtrl c i s
  | out => exact tickWork_withCtrl c s _ fun i => tickOut_withCtrl c i s
  | copy => exact tickWork_withCtrl c s _ fun i => tickCopy_withCtrl c i s
  | padw => exact tickWork_withCtrl c s _ fun i => tickPadw_withCtrl c i s
  | complete => exact tickComplete_withCtrl c s

theorem engineSteps_withCtrl (n : Nat) :
    engineSteps n (withCtrl c s) = mapNext (withCtrl c) (engineSteps n s) := by
  induction n generalizing s with
  | zero => rfl
  | succ n ih =>
    simp only [engineSteps, engineStep_withCtrl]
    cases engineStep s with
    | next t => exact ih t
    | fault f => rfl
    | refused r => rfl

end

/-- Settles O12: a command and an engine step commute with replacing CTRL. -/
theorem ctrlDoesNotReachTheRunningCommand : Obligations.CtrlDoesNotReachTheRunningCommand := by
  unfold Obligations.CtrlDoesNotReachTheRunningCommand
  refine ⟨fun i s t c h => ?_, fun n s t c h => ?_⟩
  · exact (exec_withCtrl c i s).trans (by rw [h]; rfl)
  · exact (engineSteps_withCtrl c s n).trans (by rw [h]; rfl)

/-! ### The invariant over engine steps (60_exceptions.md R221) -/

/-- Memory is canonical and the sequencer is at work, at a position it reaches. -/
structure AtWork (t : State) : Prop where
  memory : Memory.wf t.mem
  working : t.phase ≠ .idle
  sequencer : SequencerOk t

section
variable {s t : State} {i : Instr} {g : Geom} {alg : Alg} {a : Nat}

/-- Inside a command the frame carries the rest of the invariant. -/
theorem AtWork.inv (ht : AtWork t) (h : Inv s) (hp : s.phase ≠ .idle) (hf : Frame s t) : Inv t where
  memory := ht.memory
  status := by
    obtain ⟨hbusy, hclear, hnoerr, herr⟩ := h.status
    simp only [StatusOk, hf.status, hf.outlen]
    exact ⟨⟨fun _ => ht.working, fun _ => hbusy.2 hp⟩, hclear, hnoerr, herr⟩
  latch := by
    simpa only [LatchOk, hf.status, hf.src, hf.len, hf.dst, hf.latchedSrc, hf.latchedLen, hf.latchedDst, hf.raced]
      using h.latch
  reset := by simpa only [ResetOk, hf.rst, hf.status] using h.reset
  sequencer := ht.sequencer

theorem errCode_bounds (e : CmdError) : 1 ≤ (errCode e).toNat ∧ (errCode e).toNat ≤ 4 := by
  cases e <;> simp [errCode]

/-- The end of a command brings the engine to rest with a legal STATUS. -/
theorem Completed.inv {r : Option CmdError} (hc : Completed r s t) (h : Inv s) (hm : Memory.wf t.mem) : Inv t where
  memory := hm
  status := by
    obtain ⟨-, -, hnoerr, herr⟩ := h.status
    simp only [StatusOk, hc.status, hc.phase]
    rcases r with _ | e
    · exact ⟨by simp [statusComplete], nofun, hnoerr, herr⟩
    · exact ⟨by simp [statusComplete], nofun, nofun, fun _ => errCode_bounds e⟩
  latch := by
    have hbusy : t.status.busy = false := by rw [hc.status]; cases r <;> rfl
    exact ⟨fun hb => by simp [hbusy] at hb, fun _ => hc.raced⟩
  reset := fun _ => by rw [hc.status]; cases r <;> rfl
  sequencer := by simp only [SequencerOk, hc.phase]

/-! ### The merged command -/

theorem workOf_wf (hm : Memory.wf s.mem) (hc : checkOperands i s = none) : Memory.wf (workOf i s).mem := by
  cases i with
  | initMd5 | initSha1 | compressMd5 | compressSha1 => simpa [workOf, initRegs] using hm
  | nop | hashMd5 | hashSha1 | padP512 | padP1024 | padP512le => exact outputOf_wf _ _ s hm hc (length_message s)

theorem exec_wf (h : exec i s = .next t) (hm : Memory.wf s.mem) : Memory.wf t.mem := by
  obtain ⟨e, -, rfl⟩ | ⟨hc, rfl⟩ | ⟨before, x, -, rfl⟩ := exec_cases h
  · exact complete_wf i _ s hm
  · exact complete_wf i _ _ (workOf_wf (s := { s with port := _ }) hm hc)
  · exact complete_wf i _ _ hm

theorem exists_runAccepted_inv (h : Inv s) : ∃ t, runAccepted s = .next t ∧ Inv t := by
  cases hd : decode s.eng.cmdword with
  | error e =>
    exact ⟨completeIllegal s, by simp [runAccepted, hd], (completed_completeIllegal s).inv h h.memory⟩
  | ok i =>
    have hexec := exec_eq_runChecked_workOf i s
    obtain ⟨r, hr⟩ := completed_of_exec hexec
    exact ⟨_, by simp only [runAccepted, hd, hexec], hr.inv h (exec_wf hexec h.memory)⟩

/-! ### The phases -/

theorem resultOk_of_passed (hd : decode t.eng.cmdword = .ok i) (hc : checkOperands i t = none) : ResultOk t := by
  intro j hj
  cases hd.symm.trans hj
  exact .inr hc

/-- A bus error sends a command that passed its checks to COMPLETE. -/
theorem atWork_bus (hm : Memory.wf s.mem) (hd : decode s.eng.cmdword = .ok i) (hc : checkOperands i s = none)
    (port : List Access) : AtWork (raiseError (.bus a) { s with port := port }) :=
  ⟨hm, nofun, resultOk_of_passed (t := raiseError (.bus a) { s with port := port }) hd hc⟩

theorem exists_engineRead {P : State → Prop} {use : Byte → State → Host.Outcome State Fault Refusal}
    (ha : a < Config.addrLimit) (hbus : ∀ port, P (raiseError (.bus a) { s with port := port }))
    (huse : ∀ v port got, ∃ t, use v { s with port := port, got := got } = .next t ∧ P t) :
    ∃ t, engineRead a use s = .next t ∧ P t := by
  rw [engineRead, if_neg (Nat.not_le.2 ha)]
  split
  · exact ⟨_, rfl, hbus _⟩
  · exact huse _ _ _

theorem exists_engineWrite {P : State → Prop} {v : Byte} {next : State → State}
    (ha : a < Config.addrLimit) (hbus : ∀ port, P (raiseError (.bus a) { s with port := port }))
    (hnext : ∀ port, P (next { s with port := port, mem := writeByte s.mem a v })) :
    ∃ t, engineWrite a v next s = .next t ∧ P t := by
  rw [engineWrite, if_neg (Nat.not_le.2 ha)]
  split
  · exact ⟨_, rfl, hbus _⟩
  · exact ⟨_, rfl, hnext _⟩

/-- Each command starts its first work phase as 10_state.md R48 asks. -/
theorem sequencerOk_checked (hd : decode s.eng.cmdword = .ok i) (hc : checkOperands i s = none) :
    SequencerOk (checked i s) := by
  have hprog : HashInProgress (checked i s) i := fun _ => ⟨rfl, rfl, rfl⟩
  cases i with
  | nop => exact resultOk_of_passed (t := checked .nop s) hd hc
  | initMd5 | initSha1 | hashMd5 | hashSha1 => exact ⟨_, hd, hc, nofun, fun _ => rfl, hprog⟩
  | compressMd5 | compressSha1 => exact ⟨_, hd, hc, nofun, hprog⟩
  | padP512 | padP1024 | padP512le => exact ⟨_, hd, hc, nofun, rfl, Nat.zero_le _⟩

theorem engineStep_check_atWork (h : Inv s) (hp : s.phase = .check) : ∃ t, engineStep s = .next t ∧ AtWork t := by
  cases hd : decode s.eng.cmdword with
  | error e =>
    refine ⟨raiseError .cmd s, by simp [engineStep, hp, tickCheck, hd], h.memory, nofun, fun i hi => ?_⟩
    simp [raiseError]
  | ok i =>
    cases hc : checkOperands i s with
    | some e =>
      refine ⟨raiseError e s, engineStep_check_failed ⟨hp, hd⟩ hc, h.memory, nofun, fun j hj => ?_⟩
      rcases checkOperands_some i s e hc with rfl | rfl <;> simp [raiseError]
    | none =>
      refine ⟨checked i s, engineStep_check_passed ⟨hp, hd⟩ hc, h.memory, ?_, sequencerOk_checked hd hc⟩
      cases i <;> nofun

theorem paddedLen_of_hashOf (hi : hashOf i = some (g, alg)) (s : State) : paddedLen i s = padLen g (msgLen s) := by
  simp only [paddedLen, geomOf_of_hashOf hi]

theorem afterInit_cases {p : Phase} (ha : afterInit i = some (alg, p)) :
    p = .complete ∨ (p = .fill ∧ ∃ g, hashOf i = some (g, alg)) := by
  cases i <;> simp_all [afterInit, hashOf]

theorem engineStep_initH_atWork (h : Inv s) (hp : s.phase = .initH) : ∃ t, engineStep s = .next t ∧ AtWork t := by
  have hseq := h.sequencer
  simp only [SequencerOk, hp] at hseq
  obtain ⟨i, hd, hc, hinit, hq, hprog⟩ := hseq
  obtain ⟨⟨alg, p⟩, ha⟩ := Option.ne_none_iff_exists'.1 hinit
  refine ⟨_, engineStep_initH hp hd ha, ?_⟩
  obtain rfl | ⟨rfl, g, hi⟩ := afterInit_cases ha
  · cases alg <;> exact ⟨h.memory, nofun, resultOk_of_passed (i := i) hd hc⟩
  · have hhash : hashOf i ≠ none := by simp [hi]
    obtain ⟨hpadded, hk, -⟩ := hprog hhash
    have hroom : s.eng.q < s.eng.p := by
      have := lt_padLen g (msgLen s)
      rw [hq hhash, hpadded, paddedLen_of_hashOf hi]
      omega
    cases alg <;> exact ⟨h.memory, nofun, i, hd, hc, hhash, hpadded, hk, hroom⟩

theorem engineStep_fill_atWork (h : Inv s) (hp : s.phase = .fill) : ∃ t, engineStep s = .next t ∧ AtWork t := by
  have hseq := h.sequencer
  simp only [SequencerOk, hp] at hseq
  obtain ⟨i, hd, hc, hhash, hpadded, hk, hq⟩ := hseq
  obtain ⟨⟨g, alg⟩, hi⟩ := Option.ne_none_iff_exists'.1 hhash
  have hblocks := padLen_mod_of_hashOf hi (msgLen s)
  rw [← paddedLen_of_hashOf hi, ← hpadded] at hblocks
  have hfilled (v : Byte) (port : List Access) (got : List Byte) :
      AtWork (fillByte v { s with port := port, got := got }) := by
    by_cases hfull : (s.eng.q + 1) % 64 = 0
    · have hphase : (fillByte v { s with port := port, got := got }).phase = .loadw := if_pos hfull
      refine ⟨h.memory, by simp [hphase], ?_⟩
      simp only [SequencerOk, hphase]
      exact ⟨i, hd, hc, by simp [blockAlg_of_hashOf hi], fun _ => ⟨hpadded, hk, hfull⟩⟩
    · have hphase : (fillByte v { s with port := port, got := got }).phase = .fill := if_neg hfull
      refine ⟨h.memory, by simp [hphase], ?_⟩
      simp only [SequencerOk, hphase]
      exact ⟨i, hd, hc, hhash, hpadded, hk, show s.eng.q + 1 < s.eng.p by omega⟩
  have hsrc := (checkOperands_none i s hc (by simp [geomOf_of_hashOf hi])).1
  rw [engineStep_fill hp hd]
  simp only [tickFill, hi]
  rw [if_neg (by omega)]
  split
  · exact exists_engineRead (by omega) (atWork_bus h.memory hd hc) fun v port got => ⟨_, rfl, hfilled v port got⟩
  · exact ⟨_, rfl, hfilled _ s.port s.got⟩

theorem engineStep_loadw_atWork (h : Inv s) (hp : s.phase = .loadw) : ∃ t, engineStep s = .next t ∧ AtWork t := by
  have hseq := h.sequencer
  simp only [SequencerOk, hp] at hseq
  obtain ⟨i, hd, hc, hblock, hprog⟩ := hseq
  obtain ⟨alg, hb⟩ := Option.ne_none_iff_exists'.1 hblock
  refine ⟨_, engineStep_loadw hp hd hb, ?_⟩
  cases alg <;> exact ⟨h.memory, nofun, i, hd, hc, ⟨_, hb, by simp [stepBound]⟩, hprog⟩

/-- A step of a block goes on to the next one, or to ADD after the last. -/
theorem atWork_of_step (hm : Memory.wf t.mem) (hd : decode t.eng.cmdword = .ok i) (hc : checkOperands i t = none)
    (hb : blockAlg i = some alg) (hprog : HashInProgress t i) (ht : t.eng.t ≤ stepBound alg)
    (hphase : t.phase = stepPhase alg t.eng.t) : AtWork t := by
  by_cases hlast : t.eng.t = stepBound alg
  · rw [stepPhase, if_pos hlast] at hphase
    refine ⟨hm, by simp [hphase], ?_⟩
    simp only [SequencerOk, hphase]
    exact ⟨i, hd, hc, by simp [hb], hprog⟩
  · rw [stepPhase, if_neg hlast] at hphase
    refine ⟨hm, by simp [hphase], ?_⟩
    simp only [SequencerOk, hphase]
    exact ⟨i, hd, hc, ⟨alg, hb, by omega⟩, hprog⟩

theorem engineStep_step_atWork (h : Inv s) (hp : s.phase = .step) : ∃ t, engineStep s = .next t ∧ AtWork t := by
  have hseq := h.sequencer
  simp only [SequencerOk, hp] at hseq
  obtain ⟨i, hd, hc, ⟨alg, hb, ht⟩, hprog⟩ := hseq
  simp only [engineStep, hp, tickWork, hd, tickStep, hb]
  cases alg with
  | md5 => exact ⟨stepMd5 s, if_pos ht, atWork_of_step (t := stepMd5 s) h.memory hd hc hb hprog ht rfl⟩
  | sha1 => exact ⟨stepSha1 s, if_pos ht, atWork_of_step (t := stepSha1 s) h.memory hd hc hb hprog ht rfl⟩

/-- After ADD a COMPRESS completes, and a HASH fills its next block or writes its digest. -/
theorem atWork_of_add (hm : Memory.wf t.mem) (hd : decode t.eng.cmdword = .ok i) (hc : checkOperands i t = none)
    (hprog : HashInProgress t i) (hphase : t.phase = afterAdd i t) : AtWork t := by
  cases hi : hashOf i with
  | none =>
    simp only [afterAdd, hi] at hphase
    refine ⟨hm, by simp [hphase], ?_⟩
    simp only [SequencerOk, hphase]
    exact resultOk_of_passed hd hc
  | some ga =>
    have hhash : hashOf i ≠ none := by simp [hi]
    obtain ⟨hpadded, hk, -⟩ := hprog hhash
    simp only [afterAdd, hi] at hphase
    split at hphase
    · next hq =>
      refine ⟨hm, by simp [hphase], ?_⟩
      simp only [SequencerOk, hphase]
      exact ⟨i, hd, hc, hhash, hpadded, hk, hq⟩
    · refine ⟨hm, by simp [hphase], ?_⟩
      simp only [SequencerOk, hphase]
      exact ⟨i, hd, hc, hhash, hk ▸ outBytes_pos_of_hashOf hi t⟩

theorem engineStep_add_atWork (h : Inv s) (hp : s.phase = .add) : ∃ t, engineStep s = .next t ∧ AtWork t := by
  have hseq := h.sequencer
  simp only [SequencerOk, hp] at hseq
  obtain ⟨i, hd, hc, hblock, hprog⟩ := hseq
  obtain ⟨alg, hb⟩ := Option.ne_none_iff_exists'.1 hblock
  simp only [engineStep, hp, tickWork, hd, tickAdd, hb]
  cases alg with
  | md5 =>
    exact ⟨_, rfl, atWork_of_add (t := { addMd5 s with phase := afterAdd i s }) h.memory hd hc hprog rfl⟩
  | sha1 =>
    exact ⟨_, rfl, atWork_of_add (t := { addSha1 s with phase := afterAdd i s }) h.memory hd hc hprog rfl⟩

theorem length_digestBytes (hi : hashOf i = some (g, alg)) (s : State) :
    (digestBytes s alg).length = outBytes i s := by
  obtain ⟨rfl, rfl, rfl⟩ | ⟨rfl, rfl, rfl⟩ := hashOf_cases hi
  · simp [digestBytes, md5DigestBytes, outBytes]
  · simp [digestBytes, length_sha1DigestBytes, outBytes]

theorem engineStep_out_atWork (h : Inv s) (hp : s.phase = .out) : ∃ t, engineStep s = .next t ∧ AtWork t := by
  have hseq := h.sequencer
  simp only [SequencerOk, hp] at hseq
  obtain ⟨i, hd, hc, hhash, hk⟩ := hseq
  obtain ⟨⟨g, alg⟩, hi⟩ := Option.ne_none_iff_exists'.1 hhash
  have hdst := (checkOperands_none i s hc (by simp [geomOf_of_hashOf hi])).2
  have hlt : s.eng.k < (digestBytes s alg).length := by rwa [length_digestBytes hi]
  have hbyte := List.getElem?_eq_getElem hlt
  simp only [engineStep, hp, tickWork, hd, tickOut, hi, hbyte]
  refine exists_engineWrite (by omega) (atWork_bus h.memory hd hc) fun port => ?_
  have hm : Memory.wf (writeByte s.mem (dstBase s + s.eng.k) (digestBytes s alg)[s.eng.k]) :=
    writeByte_wf _ h.memory _ _ (by omega)
  by_cases hlast : s.eng.k + 1 = outBytes i s
  · simp only [hlast, if_true]
    exact ⟨hm, nofun, resultOk_of_passed (i := i) hd hc⟩
  · simp only [hlast, if_false]
    exact ⟨hm, nofun, i, hd, hc, hhash, show s.eng.k + 1 < outBytes i s by omega⟩

theorem engineStep_copy_atWork (h : Inv s) (hp : s.phase = .copy) : ∃ t, engineStep s = .next t ∧ AtWork t := by
  have hseq := h.sequencer
  simp only [SequencerOk, hp] at hseq
  obtain ⟨i, hd, hc, hpad, hpadded, hq⟩ := hseq
  obtain ⟨g, hg⟩ := Option.ne_none_iff_exists'.1 hpad
  obtain ⟨hsrc, hdst⟩ := checkOperands_none i s hc (by simp [geomOf_of_padGeom hg])
  have hroom := lt_padLen g (msgLen s)
  rw [outBytes_pad hg] at hdst
  rw [engineStep_copy hp hd]
  simp only [tickCopy, hg]
  split
  · next hlt =>
    refine exists_engineRead (by omega) (atWork_bus h.memory hd hc) fun v port got => ?_
    refine exists_engineWrite (by omega) (atWork_bus (s := { s with port := port, got := got }) h.memory hd hc) ?_
    have hm : Memory.wf (writeByte s.mem (dstBase s + s.eng.q) v) := writeByte_wf _ h.memory _ _ (by omega)
    exact fun port => ⟨hm, by simp [hp], by simp only [SequencerOk, hp]; exact ⟨i, hd, hc, hpad, hpadded, hlt⟩⟩
  · exact ⟨_, rfl, h.memory, nofun, i, hd, hc, hpad, hpadded, show msgLen s ≤ s.eng.q by omega⟩

theorem engineStep_padw_atWork (h : Inv s) (hp : s.phase = .padw) : ∃ t, engineStep s = .next t ∧ AtWork t := by
  have hseq := h.sequencer
  simp only [SequencerOk, hp] at hseq
  obtain ⟨i, hd, hc, hpad, hpadded, hq⟩ := hseq
  obtain ⟨g, hg⟩ := Option.ne_none_iff_exists'.1 hpad
  have hdst := (checkOperands_none i s hc (by simp [geomOf_of_padGeom hg])).2
  have hp' : s.eng.p = outBytes i s := by
    rw [hpadded, outBytes_pad hg, paddedLen, geomOf_of_padGeom hg]
  rw [engineStep_padw hp hd]
  simp only [tickPadw, hg]
  rw [if_neg (by omega)]
  split
  · next hlt =>
    refine exists_engineWrite (by omega) (atWork_bus h.memory hd hc) fun port => ?_
    have hm : Memory.wf (writeByte s.mem (dstBase s + s.eng.q) (padTail g (msgLen s) s.eng.q)) :=
      writeByte_wf _ h.memory _ _ (by omega)
    refine ⟨hm, by simp [hp], ?_⟩
    simp only [SequencerOk, hp]
    exact ⟨i, hd, hc, hpad, hpadded, show msgLen s ≤ s.eng.q + 1 by omega⟩
  · exact ⟨_, rfl, h.memory, nofun, resultOk_of_passed (i := i) hd hc⟩

theorem engineStep_complete_inv (h : Inv s) (hp : s.phase = .complete) : ∃ t, engineStep s = .next t ∧ Inv t := by
  have hresult := h.sequencer
  simp only [SequencerOk, hp] at hresult
  cases hd : decode s.eng.cmdword with
  | error e =>
    exact ⟨completeIllegal s, by simp [engineStep, hp, tickComplete, hd],
      (completed_completeIllegal s).inv h h.memory⟩
  | ok i =>
    have hpassed : s.eng.result = none → checkOperands i s = none := fun hr =>
      (hresult i hd).resolve_left (by simp [hr])
    refine ⟨_, engineStep_complete hp hd, (completed_complete (frame_settleRaces i s)).inv h ?_⟩
    exact complete_wf i _ _ (settleRaces_wf i s h.memory hpassed)

/-- No engine step from a state of the invariant faults, and it keeps the invariant. -/
theorem exists_engineStep_inv (h : Inv s) : ∃ t, engineStep s = .next t ∧ Inv t := by
  have hwork (hp : s.phase ≠ .idle) (hc : s.phase ≠ .complete) (hex : ∃ t, engineStep s = .next t ∧ AtWork t) :
      ∃ t, engineStep s = .next t ∧ Inv t := by
    obtain ⟨t, hstep, ht⟩ := hex
    exact ⟨t, hstep, ht.inv h hp (engineStep_frame hstep hc)⟩
  cases hp : s.phase with
  | idle => exact ⟨s, by simp [engineStep, hp], h⟩
  | check => exact hwork (by simp [hp]) (by simp [hp]) (engineStep_check_atWork h hp)
  | initH => exact hwork (by simp [hp]) (by simp [hp]) (engineStep_initH_atWork h hp)
  | fill => exact hwork (by simp [hp]) (by simp [hp]) (engineStep_fill_atWork h hp)
  | loadw => exact hwork (by simp [hp]) (by simp [hp]) (engineStep_loadw_atWork h hp)
  | step => exact hwork (by simp [hp]) (by simp [hp]) (engineStep_step_atWork h hp)
  | add => exact hwork (by simp [hp]) (by simp [hp]) (engineStep_add_atWork h hp)
  | out => exact hwork (by simp [hp]) (by simp [hp]) (engineStep_out_atWork h hp)
  | copy => exact hwork (by simp [hp]) (by simp [hp]) (engineStep_copy_atWork h hp)
  | padw => exact hwork (by simp [hp]) (by simp [hp]) (engineStep_padw_atWork h hp)
  | complete => exact engineStep_complete_inv h hp

theorem exists_engineAct_inv (h : Inv s) : ∃ t, engineAct s = .next t ∧ Inv t := by
  unfold engineAct
  split
  · exact exists_runAccepted_inv h
  · exact exists_engineStep_inv h

/-! ### The invariant over the host's inputs -/

/-- Taking an input off the agenda, and recording a reply, keep the invariant. -/
theorem inv_record (h : Inv s) (agenda : List Event) (replies : List Reply) (free : Nat) :
    Inv { s with agenda := agenda, replies := replies, free := free } :=
  ⟨h.memory, h.status, h.latch, h.reset, h.sequencer⟩

theorem inv_hostRead (h : Inv s) (width : Nat) (off : BitVec 12) : Inv (hostRead width off s) := by
  unfold hostRead
  split
  · split
    · exact inv_record h _ _ _
    · exact inv_record h _ _ _
  · exact inv_record h _ _ _

theorem inv_hostPoll (h : Inv s) (rest : List Event) : Inv (hostPoll rest s) := by
  unfold hostPoll
  split
  · exact inv_record h _ _ _
  · exact inv_hostRead (inv_record h rest s.replies s.free) _ _

theorem inv_hostMemRead (h : Inv s) (a : Word64) : Inv (hostMemRead a s) := by
  unfold hostMemRead
  split <;> exact inv_record h _ _ _

theorem inv_hostMemWrite (h : Inv s) (a : Word64) (v : Byte) : Inv (hostMemWrite a v s) := by
  refine ⟨writeByte_wf _ h.memory _ _ a.isLt, h.status, ⟨h.latch.1, fun hb => ?_⟩, h.reset, h.sequencer⟩
  have hb : s.status.busy = false := hb
  simp [hostMemWrite, hb, h.latch.2 hb]

theorem resetMemory_wf (h : Memory.wf s.mem) : Memory.wf (resetMemory s) := by
  unfold resetMemory
  split
  · split
    · exact h
    · exact scrambleOutput_wf _ s h
  · exact h

theorem inv_driveRst (h : Inv s) (level : Bool) : Inv (driveRst level s) := by
  cases level with
  | true =>
    exact ⟨resetMemory_wf h.memory, invariantAtReset.status, ⟨nofun, fun _ => rfl⟩, fun _ => rfl, trivial⟩
  | false => exact ⟨h.memory, h.status, h.latch, nofun, h.sequencer⟩

/-! ### The invariant over register writes -/

theorem inv_accept (h : Inv s) (hrst : s.rst = false) (v : Word) : Inv (accept v s) where
  memory := h.memory
  status := ⟨⟨fun _ => nofun, fun _ => rfl⟩, fun _ => ⟨rfl, rfl, rfl⟩, fun _ => rfl, nofun⟩
  latch := ⟨fun _ => ⟨rfl, rfl, rfl⟩, nofun⟩
  reset := fun hr => by simp [hrst] at hr
  sequencer := trivial

theorem inv_writeCmd (h : Inv s) (hrst : s.rst = false) (v : Word) : Inv (writeCmd v s) := by
  unfold writeCmd
  split
  · exact ⟨h.memory, h.status, h.latch, h.reset, h.sequencer⟩
  · exact inv_accept h hrst v

theorem statusOk_w1c (h : StatusOk s) (v : Word) : StatusOk { s with status := statusW1c s.status v } := by
  obtain ⟨hbusy, hclear, hnoerr, herr⟩ := h
  refine ⟨hbusy, fun hb => ?_, ?_⟩
  · obtain ⟨hdone, hne, hout⟩ := hclear hb
    exact ⟨by simp [statusW1c, hdone], by simp [statusW1c, hne], hout⟩
  · cases hv : v.getLsbD 2 with
    | true => simp [statusW1c, hv]
    | false =>
      simp only [statusW1c, hv, Bool.not_false, Bool.and_true, Bool.false_eq_true, if_false]
      exact ⟨hnoerr, herr⟩

theorem inv_idleOnly {w : State} (h : Inv s) (hw : s.status.busy = false → Inv w) : Inv (idleOnly s w) := by
  unfold idleOnly
  split
  · exact h
  · next hb => exact hw (by simpa using hb)

/-- Outside a command the operand registers are free to change. -/
theorem inv_operands (h : Inv s) (hb : s.status.busy = false) (src len dst : Word64) :
    Inv { s with src := src, len := len, dst := dst } :=
  ⟨h.memory, h.status, ⟨fun hb' => absurd (hb.symm.trans hb') nofun, h.latch.2⟩, h.reset, h.sequencer⟩

theorem inv_hashRegs (h : Inv s) (h0 h1 h2 h3 h4 : Word) (blk : Block) :
    Inv { s with h0 := h0, h1 := h1, h2 := h2, h3 := h3, h4 := h4, blk := blk } :=
  ⟨h.memory, h.status, h.latch, h.reset, h.sequencer⟩

theorem inv_writeReg (h : Inv s) (hrst : s.rst = false) (r : Reg) (v : Word) : Inv (writeReg r v s) := by
  cases r with
  | cmd => exact inv_writeCmd h hrst v
  | status => exact ⟨h.memory, statusOk_w1c h.status v, h.latch, h.reset, h.sequencer⟩
  | ctrl => exact ⟨h.memory, h.status, h.latch, h.reset, h.sequencer⟩
  | srcLo | srcHi | lenLo | lenHi | dstLo | dstHi => exact inv_idleOnly h fun hb => inv_operands h hb _ _ _
  | h0 | h1 | h2 | h3 | h4 | blkw => exact inv_idleOnly h fun _ => inv_hashRegs h _ _ _ _ _ _
  | _ => exact h

theorem inv_hostWrite (h : Inv s) (width : Nat) (off : BitVec 12) (v : Word) : Inv (hostWrite width off v s) := by
  unfold hostWrite
  split
  · split
    · exact inv_record h _ _ _
    · next hrst =>
      unfold writeOffset
      split
      · exact inv_record (inv_writeReg h (by simpa using hrst) _ v) _ _ _
      · exact inv_record h _ _ _
  · exact inv_record h _ _ _

/-! ### The invariant over every step and every run -/

/-- A step from a state of the invariant answers a state of the invariant. -/
theorem exists_step_inv (h : Inv s) : ∃ t, step s = .next t ∧ Inv t := by
  unfold step
  cases s.agenda with
  | nil => exact exists_engineAct_inv h
  | cons e rest =>
    have hrest : Inv { s with agenda := rest } := inv_record h rest s.replies s.free
    cases e with
    | rd width off => exact ⟨_, rfl, inv_hostRead hrest width off⟩
    | wr width off v => exact ⟨_, rfl, inv_hostWrite hrest width off v⟩
    | wait =>
      simp only [perform]
      split
      · exact exists_engineAct_inv h
      · exact ⟨_, rfl, inv_hostPoll h rest⟩
    | memRead a => exact ⟨_, rfl, inv_hostMemRead hrest a⟩
    | memWrite a v => exact ⟨_, rfl, inv_hostMemWrite hrest a v⟩
    | setRst level => exact ⟨_, rfl, inv_driveRst hrest level⟩
    | setBusMap m => exact ⟨_, rfl, h.memory, h.status, h.latch, h.reset, h.sequencer⟩
    | engine => exact exists_engineStep_inv hrest

theorem exists_steps_inv (n : Nat) (h : Inv s) : ∃ t, steps n s = .next t ∧ Inv t := by
  induction n generalizing s with
  | zero => exact ⟨s, rfl, h⟩
  | succ n ih =>
    obtain ⟨u, hstep, hu⟩ := exists_step_inv h
    simp only [steps, hstep]
    exact ih hu

/-- What StatusOk says of the host's view of STATUS. -/
theorem statusOk_legal (h : StatusOk t) :
    ¬(t.status.busy = true ∧ t.status.done = true) ∧ t.status.errcode.toNat ≤ 4 ∧
      (t.status.err = false → t.status.errcode = 0) := by
  obtain ⟨-, hclear, hnoerr, herr⟩ := h
  refine ⟨fun ⟨hb, hd⟩ => by simp [(hclear hb).1] at hd, ?_, hnoerr⟩
  cases he : t.status.err with
  | true => exact (herr he).2
  | false => simp [hnoerr he]

end

/-- Settles O56: a run stays inside the invariant, and the invariant's STATUS is legal. -/
theorem statusStaysLegal : Obligations.StatusStaysLegal := by
  unfold Obligations.StatusStaysLegal
  intro n s h
  obtain ⟨t, hrun, ht⟩ := exists_steps_inv n h
  exact ⟨t, hrun, statusOk_legal ht.status⟩

end Sys2Proof.StateRules

/-! ## System memory: the bytes a command changes, the accesses it makes, and the register window (20_memory.md) -/

namespace Sys2Proof.MemoryRules

open Sys2Proof.Machine Sys2Proof.Refinement Sys2Proof.StateRules

section
variable {i : Instr} {s t : State}

/-! ### Bytes outside a command's ranges -/

/-- The work of a command writes its output bytes from dst up, and nothing else (20_memory.md R61). -/
theorem workOf_mem (i : Instr) (s : State) :
    (workOf i s).mem = writeBytes s.mem (dstBase s) (outputBytes i (message s) s) := by
  cases i with
  | initMd5 | initSha1 | compressMd5 | compressSha1 => simp [workOf, initRegs, outputBytes, writeBytes]
  | nop | hashMd5 | hashSha1 | padP512 | padP1024 | padP512le => exact outputOf_mem _ (message s) s

theorem workOf_port (i : Instr) (s : State) : (workOf i s).port = s.port := by
  cases i with
  | initMd5 | initSha1 | compressMd5 | compressSha1 => simp [workOf, initRegs]
  | nop | hashMd5 | hashSha1 | padP512 | padP1024 | padP512le => exact outputOf_port _ (message s) s

theorem readByte_workOf_other {a : Nat} (hd : ¬(dstBase s ≤ a ∧ a < dstBase s + outBytes i s)) :
    readByte (workOf i s).mem a = readByte s.mem a := by
  rw [workOf_mem]
  refine readByte_writeBytes_other _ _ _ _ ?_
  rwa [length_outputBytes i (length_message s)]

/-- However a command ends, it leaves every byte alone outside its destination and, when a PAD's ranges overlap, outside its
source (20_memory.md R61, 40_padding.md R118). -/
theorem readByte_exec_other (h : exec i s = .next t) {a : Nat} (hd : ¬(dstBase s ≤ a ∧ a < dstBase s + outBytes i s))
    (hs : padOverlaps i s = true → ¬(srcBase s ≤ a ∧ a < srcBase s + msgLen s)) :
    readByte t.mem a = readByte s.mem a := by
  obtain ⟨e, -, rfl⟩ | ⟨-, rfl⟩ | ⟨before, x, -, rfl⟩ := exec_cases h
  · exact readByte_complete_other i _ s a hd hs
  · have hf := (frame_port s (s.port ++ portPlan i s)).trans (frame_workOf i _)
    rw [readByte_complete_other]
    · exact readByte_workOf_other (s := { s with port := _ }) hd
    · rwa [hf.dstBase, hf.outBytes]
    · rwa [hf.padOverlaps, hf.srcBase, hf.msgLen]
  · exact readByte_complete_other i _ { s with port := _ } a hd hs

/-- Settles O11: without an overlap the source does not matter, and with one it is left out. -/
theorem writesStayInTheDestination : Obligations.WritesStayInTheDestination := by
  unfold Obligations.WritesStayInTheDestination
  intro i s t h
  exact ⟨fun ho a hd => readByte_exec_other h hd (by simp [ho]), fun a hd hs => readByte_exec_other h hd fun _ => hs⟩

/-! ### The accesses a command makes -/

/-- A command that passes its checks and meets no bus error makes its planned accesses. -/
theorem exec_port (hc : checkOperands i s = none) (hq : PortQuiet i s) (h : exec i s = .next t) :
    t.port = s.port ++ portPlan i s := by
  rw [exec_eq_runChecked_workOf, runChecked_quiet _ _ _ hc hq] at h
  cases h
  rw [complete_port, workOf_port]

theorem exists_padGeom_of_isPad (hp : isPad i = true) : ∃ g, padGeom i = some g := by
  cases i with
  | padP512 | padP1024 | padP512le => exact ⟨_, rfl⟩
  | nop | initMd5 | initSha1 | compressMd5 | compressSha1 | hashMd5 | hashSha1 => cases hp

theorem geomOf_of_no_output (hh : hashOf i = none) (hp : isPad i = false) : geomOf i = none := by
  cases i with
  | hashMd5 | hashSha1 => cases hh
  | padP512 | padP1024 | padP512le => cases hp
  | nop | initMd5 | initSha1 | compressMd5 | compressSha1 => rfl

theorem portPlan_of_no_message (hg : geomOf i = none) (s : State) : portPlan i s = [] := by
  rw [portPlan, hg]

theorem outBytes_of_no_message (hg : geomOf i = none) (s : State) : outBytes i s = 0 := by
  cases i with
  | nop | initMd5 | initSha1 | compressMd5 | compressSha1 => rfl
  | hashMd5 | hashSha1 | padP512 | padP1024 | padP512le => cases hg

/-- Settles O31: the accesses made are the plan, read off for a HASH, a PAD and a command of neither kind. -/
theorem accessOrder : Obligations.AccessOrder := by
  unfold Obligations.AccessOrder
  intro i s t hc hq h
  rw [exec_port hc hq h]
  refine ⟨fun hh => ?_, fun hp => ?_, fun hh hp => ?_⟩
  · obtain ⟨⟨g, alg⟩, hi⟩ := Option.ne_none_iff_exists'.1 hh
    simp [portPlan, geomOf_of_hashOf hi, isPad_of_hashOf hi]
  · obtain ⟨g, hg⟩ := exists_padGeom_of_isPad hp
    simp [portPlan, geomOf_of_padGeom hg, hp]
  · rw [portPlan_of_no_message (geomOf_of_no_output hh hp), List.append_nil]

/-! ### How often the plan accesses an address -/

/-- Accesses at consecutive addresses from `base + q` touch each of them once. -/
theorem count_map_range' {f : Nat → Access} (hf : Function.Injective f) (base q n a : Nat) :
    ((List.range' q n).map fun k => f (base + k)).count (f a) =
      if base + q ≤ a ∧ a < base + (q + n) then 1 else 0 := by
  have haddr : (List.range' q n).map (fun k => f (base + k)) = (List.range' (base + q) n).map f := by
    rw [← List.map_add_range', List.map_map, Function.comp_def]
  rw [haddr, List.count_map_of_injective _ f hf, (List.nodup_range' (step := 1)).count]
  simp only [List.mem_range'_1, Nat.add_assoc]

theorem writePlan_append (s : State) (q m n : Nat) :
    writePlan s q m ++ writePlan s (q + m) n = writePlan s q (m + n) := by
  rw [writePlan, writePlan, writePlan, ← List.map_append, List.range'_append_1]

theorem count_write_writePlan (s : State) (q n a : Nat) :
    (writePlan s q n).count (.write a) = if dstBase s + q ≤ a ∧ a < dstBase s + (q + n) then 1 else 0 :=
  count_map_range' (fun _ _ h => Access.write.inj h) (dstBase s) q n a

theorem count_read_writePlan (s : State) (q n a : Nat) : (writePlan s q n).count (.read a) = 0 := by
  simp [List.count_eq_zero, writePlan]

/-- Reads of `n` source bytes from byte `q` on. -/
def readPlan (s : State) (q n : Nat) : List Access := (List.range' q n).map fun k => .read (srcBase s + k)

theorem count_read_readPlan (s : State) (q n a : Nat) :
    (readPlan s q n).count (.read a) = if srcBase s + q ≤ a ∧ a < srcBase s + (q + n) then 1 else 0 :=
  count_map_range' (fun _ _ h => Access.read.inj h) (srcBase s) q n a

theorem count_write_readPlan (s : State) (q n a : Nat) : (readPlan s q n).count (.write a) = 0 := by
  simp [List.count_eq_zero, readPlan]

theorem copyPlan_succ (s : State) (q n : Nat) :
    copyPlan s q (n + 1) = .read (srcBase s + q) :: .write (dstBase s + q) :: copyPlan s (q + 1) n := rfl

/-- COPY interleaves the reads of the source with the writes of as many destination bytes. -/
theorem copyPlan_perm (s : State) (q n : Nat) : (copyPlan s q n).Perm (readPlan s q n ++ writePlan s q n) := by
  induction n generalizing q with
  | zero => exact .refl []
  | succ n ih =>
    rw [copyPlan_succ]
    exact .cons _ (((ih (q + 1)).cons _).trans List.perm_middle.symm)

/-- A HASH or PAD plans a read of each source byte and a write of each destination byte, in some order. -/
theorem portPlan_perm (hg : geomOf i ≠ none) (s : State) :
    (portPlan i s).Perm (readPlan s 0 (msgLen s) ++ writePlan s 0 (outBytes i s)) := by
  cases hp : isPad i with
  | false =>
    obtain ⟨⟨g, alg⟩, hi⟩ := Option.ne_none_iff_exists'.1 fun hh => hg (geomOf_of_no_output hh hp)
    rw [portPlan_hash hi]
    exact .refl _
  | true =>
    obtain ⟨g, hpad⟩ := exists_padGeom_of_isPad hp
    have hroom := lt_padLen g (msgLen s)
    have hsplit : outBytes i s = msgLen s + (padLen g (msgLen s) - msgLen s) := by rw [outBytes_pad hpad]; omega
    have htail := writePlan_append s 0 (msgLen s) (padLen g (msgLen s) - msgLen s)
    rw [Nat.zero_add] at htail
    rw [portPlan_pad hpad, hsplit, ← htail, ← List.append_assoc]
    exact (copyPlan_perm s 0 (msgLen s)).append_right _

/-- Settles O32: the accesses made are the plan, in which each byte of a range stands once. -/
theorem eachByteAccessedOnce : Obligations.EachByteAccessedOnce := by
  unfold Obligations.EachByteAccessedOnce
  intro i s t hc hq h
  refine ⟨portPlan i s, exec_port hc hq h, fun hg a => ?_, fun a => ?_⟩
  · rw [(portPlan_perm hg s).count_eq, List.count_append, count_read_readPlan, count_read_writePlan]
    simp
  · by_cases hg : geomOf i = none
    · simp [portPlan_of_no_message hg, outBytes_of_no_message hg]
    · rw [(portPlan_perm hg s).count_eq, List.count_append, count_write_readPlan, count_write_writePlan]
      simp

/-! ### Register accesses by the host -/

theorem legalAccess_iff {width : Nat} {off : BitVec 12} :
    legalAccess width off = true ↔ width = 4 ∧ off.toNat % 4 = 0 := by
  simp [legalAccess]

theorem step_rd {width : Nat} {off : BitVec 12} {rest : List Event} (ha : s.agenda = .rd width off :: rest) :
    step s = .next (hostRead width off { s with agenda := rest }) := by
  simp only [step, ha, perform]

theorem step_wr {width : Nat} {off : BitVec 12} {v : Word} {rest : List Event} (ha : s.agenda = .wr width off v :: rest) :
    step s = .next (hostWrite width off v { s with agenda := rest }) := by
  simp only [step, ha, perform]

theorem hostRead_illegal {width : Nat} {off : BitVec 12} (hl : ¬ legalAccess width off = true) (s : State) :
    hostRead width off s = reply .busError s := if_neg hl

theorem hostWrite_illegal {width : Nat} {off : BitVec 12} (hl : ¬ legalAccess width off = true) (v : Word) (s : State) :
    hostWrite width off v s = reply .busError s := if_neg hl

/-- A legal read is answered with a word, and draws a free value only where R249 or reset leaves the word open. -/
theorem hostRead_legal {width : Nat} {off : BitVec 12} (hl : legalAccess width off = true) (s : State) :
    ∃ v n, hostRead width off s = { reply (.word v) s with free := n } ∧ (readIsFree off s = false → n = s.free) := by
  rw [hostRead, if_pos hl]
  split
  · next hfree => exact ⟨_, _, rfl, fun hset => by simp [hset] at hfree⟩
  · exact ⟨_, s.free, rfl, fun _ => rfl⟩

theorem idleOnly_replies {w : State} (h : w.replies = s.replies) : (idleOnly s w).replies = s.replies := by
  unfold idleOnly
  split
  · rfl
  · exact h

theorem writeCmd_replies (v : Word) (s : State) : (writeCmd v s).replies = s.replies := by
  unfold writeCmd
  split <;> rfl

theorem writeReg_replies (r : Reg) (v : Word) (s : State) : (writeReg r v s).replies = s.replies := by
  cases r with
  | cmd => exact writeCmd_replies v s
  | srcLo | srcHi | lenLo | lenHi | dstLo | dstHi | h0 | h1 | h2 | h3 | h4 | blkw => exact idleOnly_replies rfl
  | _ => rfl

theorem writeOffset_replies (off : BitVec 12) (v : Word) (s : State) : (writeOffset off v s).replies = s.replies := by
  unfold writeOffset
  split
  · exact writeReg_replies _ v s
  · rfl

/-- A legal write is taken, whether it has an effect or not. -/
theorem hostWrite_legal {width : Nat} {off : BitVec 12} (hl : legalAccess width off = true) (v : Word) (s : State) :
    (hostWrite width off v s).replies = .done :: s.replies := by
  rw [hostWrite, if_pos hl]
  split
  · rfl
  · rw [reply_replies, writeOffset_replies]

/-- A legal register access gets one answer, and it is not a bus error (20_memory.md R66). -/
theorem step_legal_replies {width : Nat} {off : BitVec 12} {v : Word} {rest : List Event} {e : Event}
    (he : e ∈ [Event.rd width off, .wr width off v]) (ha : s.agenda = e :: rest) (hl : legalAccess width off = true) :
    ∃ t r, step s = .next t ∧ t.replies = r :: s.replies ∧ r ≠ .busError := by
  simp only [List.mem_cons, List.not_mem_nil, or_false] at he
  rcases he with rfl | rfl
  · obtain ⟨w, n, hread, -⟩ := hostRead_legal hl { s with agenda := rest }
    exact ⟨_, .word w, step_rd ha, by rw [hread]; rfl, nofun⟩
  · exact ⟨_, .done, step_wr ha, hostWrite_legal hl v { s with agenda := rest }, nofun⟩

/-- A register access of a bad width or alignment is answered with a bus error and has no effect (20_memory.md R66). -/
theorem step_illegal {width : Nat} {off : BitVec 12} {v : Word} {rest : List Event} {e : Event}
    (he : e ∈ [Event.rd width off, .wr width off v]) (ha : s.agenda = e :: rest) (hl : ¬ legalAccess width off = true) :
    step s = .next (reply .busError { s with agenda := rest }) := by
  simp only [List.mem_cons, List.not_mem_nil, or_false] at he
  rcases he with rfl | rfl
  · rw [step_rd ha, hostRead_illegal hl]
  · rw [step_wr ha, hostWrite_illegal hl]

/-- Settles O49: an access is legal or not, and each kind is answered alike by reads and writes. -/
theorem badRegisterAccess : Obligations.BadRegisterAccess := by
  unfold Obligations.BadRegisterAccess
  intro width off v s rest e he ha
  constructor
  · intro hbad
    exact step_illegal he ha fun hl => by rw [legalAccess_iff] at hl; omega
  · intro hw halign
    obtain ⟨t, r, hstep, hreplies, hr⟩ := step_legal_replies he ha (legalAccess_iff.2 ⟨hw, halign⟩)
    exact ⟨t, hstep, by rw [hreplies, List.length_cons], by simpa [hreplies] using hr⟩

/-- Settles O50: an illegal read is a bus error, and a legal one changes the host's record and the draw counter alone. -/
theorem readsHaveNoSideEffect : Obligations.ReadsHaveNoSideEffect := by
  unfold Obligations.ReadsHaveNoSideEffect
  intro width off s rest ha
  by_cases hl : legalAccess width off = true
  · obtain ⟨w, n, hread, hfree⟩ := hostRead_legal hl { s with agenda := rest }
    exact ⟨_, .word w, step_rd ha, by rw [hread]; rfl, fun hset => by rw [hread]; exact hfree hset⟩
  · exact ⟨_, .busError, step_illegal (v := 0) (by simp) ha hl, rfl, fun _ => rfl⟩

end

end Sys2Proof.MemoryRules


/-! ## Encoding: the fields of a command word, the decoder and the encoder, and illegal words (30_encoding.md) -/

namespace Sys2Proof.EncodingRules

open Sys2Proof.Machine

/-! ### A word and its fields -/

/-- The three fields leave out no bit of the word (30_encoding.md R86). -/
theorem packFields_cmdFields (w : Word) : packFields (cmdFields w) = w := by
  have hhigh : w.extractLsb' 6 26 ++ w.extractLsb' 4 2 = w.extractLsb' 4 28 :=
    BitVec.extractLsb'_append_extractLsb'_eq_extractLsb' (by decide)
  calc packFields (cmdFields w) = w.extractLsb' 4 28 ++ w.extractLsb' 0 4 := congrArg (· ++ w.extractLsb' 0 4) hhigh
    _ = w.extractLsb' 0 32 := BitVec.extractLsb'_append_extractLsb'_eq_extractLsb' (by decide)
    _ = w := BitVec.extractLsb'_eq_self

theorem cmdFields_encode (i : Instr) : cmdFields (encode i) = i.fields := by
  cases i with
  | nop => exact Laws.EncodedFields.nop.1
  | initMd5 => exact Laws.EncodedFields.initMd5.1
  | initSha1 => exact Laws.EncodedFields.initSha1.1
  | compressMd5 => exact Laws.EncodedFields.compressMd5.1
  | compressSha1 => exact Laws.EncodedFields.compressSha1.1
  | hashMd5 => exact Laws.EncodedFields.hashMd5.1
  | hashSha1 => exact Laws.EncodedFields.hashSha1.1
  | padP512 => exact Laws.EncodedFields.padP512.1
  | padP1024 => exact Laws.EncodedFields.padP1024.1
  | padP512le => exact Laws.EncodedFields.padP512le.1

/-- A command's word is the one word with that command's fields. -/
theorem cmdFields_eq_fields_iff (w : Word) (i : Instr) : cmdFields w = i.fields ↔ w = encode i := by
  constructor
  · intro h
    rw [← packFields_cmdFields w, h, encode]
  · rintro rfl
    exact cmdFields_encode i

/-- The fields as digits of the number the word is. -/
theorem cmdFields_toNat (w : Word) :
    (cmdFields w).op.toNat = w.toNat % 16 ∧ (cmdFields w).sel.toNat = w.toNat / 16 % 4 ∧
    (cmdFields w).rsvd.toNat = w.toNat / 64 := by
  have hfit : w.toNat / 64 < 2 ^ 26 := by have := w.isLt; omega
  simpa [cmdFields, Nat.shiftRight_eq_div_pow] using hfit

/-! ### What the decoder answers on fields -/

section
variable {sel : BitVec 2} {f : CmdFields} {i : Instr}

theorem decodeAlg_map_ok {c : Alg → Instr} (h : (decodeAlg sel).map c = .ok i) :
    (sel = 0 ∧ i = c .md5) ∨ (sel = 1 ∧ i = c .sha1) := by
  unfold decodeAlg at h
  split at h
  · next h0 => cases h; exact .inl ⟨BitVec.eq_of_toNat_eq h0, rfl⟩
  · next h1 => cases h; exact .inr ⟨BitVec.eq_of_toNat_eq h1, rfl⟩
  · cases h

theorem decodeGeom_map_ok {c : Geom → Instr} (h : (decodeGeom sel).map c = .ok i) :
    (sel = 0 ∧ i = c .p512) ∨ (sel = 1 ∧ i = c .p1024) ∨ (sel = 2 ∧ i = c .p512le) := by
  unfold decodeGeom at h
  split at h
  · next h0 => cases h; exact .inl ⟨BitVec.eq_of_toNat_eq h0, rfl⟩
  · next h1 => cases h; exact .inr (.inl ⟨BitVec.eq_of_toNat_eq h1, rfl⟩)
  · next h2 => cases h; exact .inr (.inr ⟨BitVec.eq_of_toNat_eq h2, rfl⟩)
  · cases h

/-- No fields but a command's own decode to it: one case for each OP of 30_encoding.md R90. -/
theorem eq_fields_of_decodeFields (h : decodeFields f = .ok i) : f = i.fields := by
  obtain ⟨op, sel, rsvd⟩ := f
  unfold decodeFields at h
  split at h
  · cases h
  · next hrsvd =>
    obtain rfl : rsvd = 0 := not_not.mp hrsvd
    split at h
    · next hop =>
      obtain rfl : op = 0 := BitVec.eq_of_toNat_eq hop
      split at h
      · next hsel => cases h; cases hsel; rfl
      · cases h
    · next hop =>
      obtain rfl : op = 1 := BitVec.eq_of_toNat_eq hop
      obtain ⟨rfl, rfl⟩ | ⟨rfl, rfl⟩ := decodeAlg_map_ok h <;> rfl
    · next hop =>
      obtain rfl : op = 2 := BitVec.eq_of_toNat_eq hop
      obtain ⟨rfl, rfl⟩ | ⟨rfl, rfl⟩ := decodeAlg_map_ok h <;> rfl
    · next hop =>
      obtain rfl : op = 3 := BitVec.eq_of_toNat_eq hop
      obtain ⟨rfl, rfl⟩ | ⟨rfl, rfl⟩ := decodeAlg_map_ok h <;> rfl
    · next hop =>
      obtain rfl : op = 4 := BitVec.eq_of_toNat_eq hop
      obtain ⟨rfl, rfl⟩ | ⟨rfl, rfl⟩ | ⟨rfl, rfl⟩ := decodeGeom_map_ok h <;> rfl
    · cases h

theorem decodeFields_fields (i : Instr) : decodeFields i.fields = .ok i := by
  cases i <;> rfl

theorem decodeFields_eq_ok_iff : decodeFields f = .ok i ↔ f = i.fields :=
  ⟨eq_fields_of_decodeFields, fun h => h ▸ decodeFields_fields i⟩

end

/-- Settles O2: the decoder sees the fields alone, and a command's fields determine its word. -/
theorem decodeInvertsEncode : Obligations.DecodeInvertsEncode := by
  unfold Obligations.DecodeInvertsEncode
  intro w i
  calc decode w = .ok i ↔ cmdFields w = i.fields := decodeFields_eq_ok_iff
    _ ↔ w = encode i := cmdFields_eq_fields_iff w i

theorem decode_encode (i : Instr) : decode (encode i) = .ok i := (decodeInvertsEncode _ i).2 rfl

/-! ### Illegal words -/

theorem decodeAlg_isOk (c : Alg → Instr) (sel : BitVec 2) : ((decodeAlg sel).map c).isOk = decide (sel.toNat ≤ 1) := by
  unfold decodeAlg
  split
  · next h0 => rw [h0]; rfl
  · next h1 => rw [h1]; rfl
  · next h0 h1 =>
    have hsel : ¬ sel.toNat ≤ 1 := by grind
    exact (decide_eq_false hsel).symm

theorem decodeGeom_isOk (c : Geom → Instr) (sel : BitVec 2) : ((decodeGeom sel).map c).isOk = decide (sel.toNat ≤ 2) := by
  unfold decodeGeom
  split
  · next h0 => rw [h0]; rfl
  · next h1 => rw [h1]; rfl
  · next h2 => rw [h2]; rfl
  · next h0 h1 h2 =>
    have hsel : ¬ sel.toNat ≤ 2 := by grind
    exact (decide_eq_false hsel).symm

/-- The decoder accepts exactly the fields that pass the three checks of 30_encoding.md R86. -/
theorem decodeFields_isOk (f : CmdFields) : (decodeFields f).isOk = f.wf := by
  unfold decodeFields CmdFields.wf CmdFields.rsvdOk CmdFields.opOk CmdFields.selOk
  split
  · next hrsvd =>
    rw [beq_eq_false_iff_ne.mpr hrsvd]
    rfl
  · next hrsvd =>
    rw [not_not.mp hrsvd]
    split
    · next hop =>
      split
      · next hsel =>
        rw [hop, hsel]
        rfl
      · next hsel =>
        rw [hop, beq_eq_false_iff_ne.mpr hsel]
        rfl
    · next hop => simp [hop, decodeAlg_isOk]
    · next hop => simp [hop, decodeAlg_isOk]
    · next hop => simp [hop, decodeAlg_isOk]
    · next hop => simp [hop, decodeGeom_isOk]
    · next h0 h1 h2 h3 h4 =>
      have hop : ¬ f.op.toNat ≤ 4 := by grind
      rw [decide_eq_false hop]
      rfl

/-- The reserved values of SEL under each OP (30_encoding.md R91). -/
theorem selOk_eq_false_iff (f : CmdFields) : f.selOk = false ↔
    ((f.op.toNat = 1 ∨ f.op.toNat = 2 ∨ f.op.toNat = 3) ∧ 2 ≤ f.sel.toNat) ∨
    (f.op.toNat = 4 ∧ f.sel.toNat = 3) ∨ (f.op.toNat = 0 ∧ f.sel.toNat ≠ 0) := by
  have hsel : f.sel.toNat < 4 := f.sel.isLt
  unfold CmdFields.selOk
  split
  · next hop => simp [hop, BitVec.toNat_eq]
  · next hop => simp [hop, Nat.succ_le_iff]
  · next hop => simp [hop, Nat.succ_le_iff]
  · next hop => simp [hop, Nat.succ_le_iff]
  · next hop =>
    have hthree : 2 < f.sel.toNat ↔ f.sel.toNat = 3 := by omega
    simp [hop, hthree]
  · next h0 h1 h2 h3 h4 =>
    simp only [Bool.true_eq_false, false_iff]
    grind

/-- The ways in which fields fail the checks, on numbers (30_encoding.md R91). -/
theorem wf_eq_false_iff (f : CmdFields) : f.wf = false ↔
    5 ≤ f.op.toNat ∨ ((f.op.toNat = 1 ∨ f.op.toNat = 2 ∨ f.op.toNat = 3) ∧ 2 ≤ f.sel.toNat) ∨
    (f.op.toNat = 4 ∧ f.sel.toNat = 3) ∨ (f.op.toNat = 0 ∧ f.sel.toNat ≠ 0) ∨ f.rsvd.toNat ≠ 0 := by
  have hrsvdOk : f.rsvdOk = false ↔ f.rsvd.toNat ≠ 0 := by simp [CmdFields.rsvdOk, BitVec.toNat_eq]
  have hopOk : f.opOk = false ↔ 5 ≤ f.op.toNat := by simp [CmdFields.opOk, Nat.succ_le_iff]
  rw [CmdFields.wf, Bool.and_eq_false_iff, Bool.and_eq_false_iff, hrsvdOk, hopOk, selOk_eq_false_iff]
  tauto

theorem exists_error_iff_isOk {ε α : Type} (x : Except ε α) : (∃ e, x = .error e) ↔ x.isOk = false := by
  cases x <;> simp [Except.isOk, Except.toBool]

/-- Settles O3: the decoder rejects the fields that fail a check, and each field is a digit of the word's number. -/
theorem illegalWordsByField : Obligations.IllegalWordsByField := by
  unfold Obligations.IllegalWordsByField
  intro w
  obtain ⟨hop, hsel, hrsvd⟩ := cmdFields_toNat w
  rw [exists_error_iff_isOk, decode, decodeFields_isOk, wf_eq_false_iff, hop, hsel, hrsvd]

/-- The step of an accepted word that is illegal, with no input pending, ends the command (30_encoding.md R91). -/
theorem step_of_decode_error {s : State} {e : IllegalWord} (ha : s.agenda = []) (hp : s.phase = .check)
    (hd : decode s.eng.cmdword = .error e) : step s = .next (completeIllegal s) := by
  simp only [step, ha, engineAct, if_pos hp, runAccepted, hd]

/-- Settles O8: completion with CMD writes STATUS and the engine's internal state only. -/
theorem illegalCommandCompletes : Obligations.IllegalCommandCompletes := by
  unfold Obligations.IllegalCommandCompletes
  intro s e ha hp hd
  exact ⟨completeIllegal s, step_of_decode_error ha hp hd, ⟨rfl, rfl⟩, rfl, rfl, ⟨rfl, rfl, rfl, rfl, rfl, rfl, rfl⟩,
    rfl, rfl, ⟨rfl, rfl, rfl, rfl, rfl, rfl, rfl, rfl, rfl⟩⟩

/-- Settles O1: each word of the table is the word of its command. -/
theorem tableWordsDecode : Obligations.TableWordsDecode := by
  unfold Obligations.TableWordsDecode
  exact ⟨decode_encode .nop, decode_encode .initMd5, decode_encode .initSha1, decode_encode .compressMd5,
    decode_encode .compressSha1, decode_encode .hashMd5, decode_encode .hashSha1, decode_encode .padP512,
    decode_encode .padP1024, decode_encode .padP512le⟩

end Sys2Proof.EncodingRules

/-! ## Padding: the padded length and buffer, and what a PAD writes (40_padding.md) -/

namespace Sys2Proof.PaddingRules

open Sys2Proof.Machine Sys2Proof.Refinement Sys2Proof.StateRules Sys2Proof.MemoryRules

/-! ### The padded length -/

/-- One closed form for the three geometries (40_padding.md R107). -/
theorem padLen_eq_div_mul (g : Geom) (l : Nat) :
    padLen g l = ((l + fieldBytes g) / blockBytes g + 1) * blockBytes g := by
  cases g with
  | p512 => rw [padLen_p512, fieldBytes, blockBytes, ← Nat.add_div_right _ (by decide)]
  | p1024 => rw [padLen_p1024, fieldBytes, blockBytes, ← Nat.add_div_right _ (by decide)]
  | p512le => rw [padLen_p512le, fieldBytes, blockBytes, ← Nat.add_div_right _ (by decide)]

theorem padLen_div_blockBytes (g : Geom) (l : Nat) :
    padLen g l / blockBytes g = (l + fieldBytes g) / blockBytes g + 1 := by
  have hpos : 0 < blockBytes g := by cases g <;> decide
  rw [padLen_eq_div_mul, Nat.mul_div_cancel _ hpos]

/-- The field spills into the next block when fewer than F + 1 bytes are free in the last one (40_padding.md R109). -/
theorem add_fieldBytes_div (g : Geom) (l : Nat) :
    (l + fieldBytes g) / blockBytes g =
      if l % blockBytes g ≤ blockBytes g - fieldBytes g - 1 then l / blockBytes g else l / blockBytes g + 1 := by
  by_cases h : l % blockBytes g ≤ blockBytes g - fieldBytes g - 1
  · rw [if_pos h]
    cases g <;> simp only [blockBytes, fieldBytes] at h ⊢ <;> omega
  · rw [if_neg h]
    cases g <;> simp only [blockBytes, fieldBytes] at h ⊢ <;> omega

/-- A smaller multiple of B would be smaller by a whole block, and the padding has fewer than B zero bytes. -/
theorem padLen_le_of_mod_eq_zero {g : Geom} {l p : Nat} (hp : p % blockBytes g = 0) (hl : l + 1 + fieldBytes g ≤ p) :
    padLen g l ≤ p := by
  by_contra hlt
  have hdvd : blockBytes g ∣ padLen g l - p :=
    Nat.dvd_sub (Nat.dvd_of_mod_eq_zero (padLen_mod g l)) (Nat.dvd_of_mod_eq_zero hp)
  have hblock : blockBytes g ≤ padLen g l - p := Nat.le_of_dvd (by omega) hdvd
  have hzeros := (zeroFill_spec g l).1
  simp only [padLen] at hblock
  omega

theorem padLen_of_blockBytes_64 {g : Geom} (hg : blockBytes g = 64) (l : Nat) : padLen g l = (l + 72) / 64 * 64 := by
  cases g with
  | p512 => exact padLen_p512 l
  | p1024 => cases hg
  | p512le => exact padLen_p512le l

theorem padLen_of_blockBytes_128 {g : Geom} (hg : blockBytes g = 128) (l : Nat) :
    padLen g l = (l + 144) / 128 * 128 := by
  cases g with
  | p1024 => exact padLen_p1024 l
  | p512 | p512le => cases hg

/-- Settles O34: P is a multiple of B by `padLen_mod`, the least by `padLen_le_of_mod_eq_zero`. -/
theorem paddedLengthIsLeastMultiple : Obligations.PaddedLengthIsLeastMultiple := by
  unfold Obligations.PaddedLengthIsLeastMultiple
  intro g l
  have hroom := lt_padLen g l
  refine ⟨rfl, padLen_mod g l, by omega, fun p => padLen_le_of_mod_eq_zero, fun hg => ?_, fun hg => ?_⟩
  · exact padLen_of_blockBytes_64 hg l
  · rw [padLen_of_blockBytes_128 hg]
    omega

/-- Settles O38: a message takes one block more than the whole blocks of L + F bytes. -/
theorem blockCount : Obligations.BlockCount := by
  unfold Obligations.BlockCount
  intro l
  refine ⟨fun g => ?_, fun g hg => ?_, ?_, fun g hl => ?_⟩
  · rw [padLen_div_blockBytes, add_fieldBytes_div]
    split <;> rfl
  · rw [padLen_of_blockBytes_64 hg]
    split <;> omega
  · rw [padLen_p1024]
    split <;> omega
  · rw [padLen_eq_div_mul]
    cases g <;> simp only [blockBytes, fieldBytes] at hl ⊢ <;> omega

/-! ### The size check -/

theorem pad_eq_none_iff {g : Geom} {m : List Byte} : pad g m = none ↔ sizeOverflows g m.length = true := by
  unfold pad
  split <;> simp_all

theorem pad_eq_some_iff {g : Geom} {m pd : List Byte} :
    pad g m = some pd ↔ sizeOverflows g m.length = false ∧ padBytes g m = pd := by
  unfold pad
  split <;> simp_all

/-- The length field holds numbers up to 2^(8F) - 1 (40_padding.md R110). -/
theorem sizeOverflows_iff_lt (g : Geom) (l : Nat) : sizeOverflows g l = true ↔ 2 ^ (8 * fieldBytes g) - 1 < 8 * l := by
  have hpos := Nat.two_pow_pos (8 * fieldBytes g)
  rw [sizeOverflows, decide_eq_true_iff]
  omega

/-- No 64-bit length overflows a 16-byte field. -/
theorem sizeOverflows_p1024_msgLen (s : State) : sizeOverflows .p1024 (msgLen s) = false := by
  have hlen : msgLen s < 2 ^ 64 := s.eng.len.isLt
  rw [Bool.eq_false_iff, Ne, sizeOverflows_iff, if_pos rfl]
  omega

/-- Settles O36: SIZE is `sizeOverflows`, which the 64-bit LEN never makes true for P1024. -/
theorem sizeOverflowThreshold : Obligations.SizeOverflowThreshold := by
  unfold Obligations.SizeOverflowThreshold
  refine ⟨fun g m => ⟨?_, ?_⟩, fun s => ?_⟩
  · rw [pad_eq_none_iff, sizeOverflows_iff_lt]
  · rw [pad_eq_none_iff, sizeOverflows_iff]
  · simp only [checkOperands, geomOf, sizeOverflows_p1024_msgLen, Bool.false_eq_true, if_false]
    split <;> simp

/-! ### The numbers byte sequences hold -/

theorem byteOf_zero (v : Nat) : byteOf v 0 = BitVec.ofNat 8 v := rfl

theorem byteOf_succ (v m : Nat) : byteOf v (m + 1) = byteOf (v / 256) m := by
  simp only [byteOf, Nat.mul_succ, Nat.add_comm _ 8, Nat.shiftRight_add, Nat.shiftRight_eq_div_pow _ 8, Nat.reducePow]

theorem leBytes_succ (v n : Nat) : leBytes v (n + 1) = BitVec.ofNat 8 v :: leBytes (v / 256) n := by
  simp [leBytes, List.range_succ_eq_map, byteOf_zero, byteOf_succ]

/-- `n` little-endian bytes hold a number modulo 2^(8n) (00_scope.md R9). -/
theorem leValue_leBytes (v n : Nat) : leValue (leBytes v n) = v % 2 ^ (8 * n) := by
  induction n generalizing v with
  | zero => simp [leBytes, leValue, Nat.mod_one]
  | succ n ih =>
    have hcons : leValue (leBytes v (n + 1)) = v % 256 + 256 * leValue (leBytes (v / 256) n) := by
      rw [leBytes_succ, leValue, List.foldr_cons, BitVec.toNat_ofNat]
      rfl
    rw [hcons, ih, Nat.mul_succ, Nat.add_comm _ 8, Nat.pow_add, Nat.mod_mul]

theorem beBytes_eq_reverse (v n : Nat) : beBytes v n = (leBytes v n).reverse := by
  rw [beBytes, leBytes, ← List.map_reverse, List.range_eq_range', List.reverse_range', List.map_map,
    ← List.range_eq_range']
  simp [Function.comp_def]

theorem beValue_reverse (bs : List Byte) : beValue bs.reverse = leValue bs := by
  simp only [beValue, leValue, List.foldl_reverse, Nat.add_comm]

theorem beValue_beBytes (v n : Nat) : beValue (beBytes v n) = v % 2 ^ (8 * n) := by
  rw [beBytes_eq_reverse, beValue_reverse, leValue_leBytes]

/-- Without SIZE the length field holds 8L, in the geometry's byte order (40_padding.md R106). -/
theorem lengthField_value {g : Geom} {l : Nat} (h : sizeOverflows g l = false) :
    if g = .p512le then leValue (lengthField g l) = 8 * l else beValue (lengthField g l) = 8 * l := by
  have hfit : 8 * l < 2 ^ (8 * fieldBytes g) := by simpa [sizeOverflows] using h
  have hmod := Nat.mod_eq_of_lt hfit
  cases g with
  | p512 | p1024 => exact (beValue_beBytes _ _).trans hmod
  | p512le => exact (leValue_leBytes _ _).trans hmod

/-! ### The generated bytes and the padded buffer -/

theorem padTail_message_end (g : Geom) (l : Nat) : padTail g l l = 0x80 := if_pos rfl

theorem padTail_zero {g : Geom} {l q : Nat} (hl : l < q) (hq : q < padLen g l - fieldBytes g) : padTail g l q = 0 := by
  rw [padTail, if_neg hl.ne', if_pos hq]
  rfl

theorem padTail_field {g : Geom} {l : Nat} (j : Nat) :
    padTail g l (padLen g l - fieldBytes g + j) =
      byteOf (8 * l) (if g = .p512le then j else fieldBytes g - 1 - j) := by
  have hroom := lt_padLen g l
  rw [padTail, if_neg (by omega), if_neg (by omega), Nat.add_sub_cancel_left]
  cases g <;> rfl

/-- Settles O37: past the message the buffer is what `padTail` generates. -/
theorem streamIsThePaddedBuffer : Obligations.StreamIsThePaddedBuffer := by
  unfold Obligations.StreamIsThePaddedBuffer
  intro g m q hq hP
  exact getElem?_padBytes_tail hq hP

theorem take_padBytes (g : Geom) (m : List Byte) : (padBytes g m).take m.length = m := List.take_left

theorem drop_padBytes (g : Geom) (m : List Byte) :
    (padBytes g m).drop (padLen g m.length - fieldBytes g) = lengthField g m.length := by
  have hsplit : padBytes g m = (m ++ 0x80#8 :: List.replicate (zeroFill g m.length) 0#8) ++ lengthField g m.length := by
    simp [padBytes]
  rw [hsplit]
  refine List.drop_left' ?_
  simp [padLen]
  omega

/-- Settles O35: the buffer is the message, the generated bytes of `padTail`, and at its end the length field. -/
theorem paddedBufferInvariants : Obligations.PaddedBufferInvariants := by
  unfold Obligations.PaddedBufferInvariants
  intro g m pd hpad
  obtain ⟨hsize, rfl⟩ := pad_eq_some_iff.1 hpad
  have hroom := lt_padLen g m.length
  rw [length_padBytes, drop_padBytes]
  refine ⟨rfl, padLen_mod g m.length, take_padBytes g m, ?_, fun q hl hq => ?_, lengthField_value hsize⟩
  · rw [getElem?_padBytes_tail le_rfl (by omega), padTail_message_end]
  · rw [getElem?_padBytes_tail hl.le (by omega), padTail_zero hl hq]

/-! ### The hash registers under NOP and PAD -/

section
variable {i : Instr} {s t u : State}

theorem hashRegsFrame_trans (h : HashRegsFrame s t) (k : HashRegsFrame t u) : HashRegsFrame s u := by
  rw [hashRegsFrame_iff] at h k ⊢
  obtain ⟨hwords, hblk, hcnt⟩ := h
  obtain ⟨kwords, kblk, kcnt⟩ := k
  exact ⟨kwords.trans hwords, kblk.trans hblk, kcnt.trans hcnt⟩

/-- Completion itself writes none of the hash registers; what it leaves there is what the hazards leave. -/
theorem hashRegsFrame_complete {r : Option CmdError} (h : HashRegsFrame s (unsettle i r s)) :
    HashRegsFrame s (complete i r s) := by
  simpa only [HashRegsFrame, complete_h0, complete_h1, complete_h2, complete_h3, complete_h4, complete_blk,
    complete_blkcnt] using h

/-- The completion of a success changes no hash register: its hazards are in memory (70_reset_and_hazards.md R246). -/
theorem hashRegsFrame_complete_none (i : Instr) (s : State) : HashRegsFrame s (complete i none s) :=
  hashRegsFrame_complete (by simp [HashRegsFrame])

theorem hashRegsFrame_complete_check {e : CmdError} (he : e = .size ∨ e = .addr) :
    HashRegsFrame s (complete i (some e) s) := by
  refine hashRegsFrame_complete ?_
  rcases he with rfl | rfl <;> simp [HashRegsFrame]

/-- Only a HASH leaves its registers unspecified after a bus error (60_exceptions.md R219). -/
theorem hashRegsFrame_complete_bus (h : algOf i = none) (a : Nat) (s : State) :
    HashRegsFrame s (complete i (some (.bus a)) s) := by
  refine hashRegsFrame_complete ?_
  cases i with
  | nop | padP512 | padP1024 | padP512le => exact ⟨rfl, rfl, rfl, rfl, rfl, rfl, rfl⟩
  | initMd5 | initSha1 | compressMd5 | compressSha1 | hashMd5 | hashSha1 => cases h

theorem hashRegsFrame_workOf (h : algOf i = none) (s : State) : HashRegsFrame s (workOf i s) := by
  cases i with
  | nop | padP512 | padP1024 | padP512le => exact ⟨rfl, rfl, rfl, rfl, rfl, rfl, rfl⟩
  | initMd5 | initSha1 | compressMd5 | compressSha1 | hashMd5 | hashSha1 => cases h

theorem hashRegsFrame_exec (ha : algOf i = none) (h : exec i s = .next t) : HashRegsFrame s t := by
  obtain ⟨e, he, rfl⟩ | ⟨-, rfl⟩ | ⟨before, x, -, rfl⟩ := exec_cases h
  · exact hashRegsFrame_complete_check he
  · have hwork := hashRegsFrame_workOf ha { s with port := s.port ++ portPlan i s }
    exact hashRegsFrame_trans hwork (hashRegsFrame_complete_none i _)
  · exact hashRegsFrame_complete_bus ha _ { s with port := _ }

/-- Settles O26: by the ways a command can end. -/
theorem padAndNopLeaveTheHashRegisters : Obligations.PadAndNopLeaveTheHashRegisters := by
  unfold Obligations.PadAndNopLeaveTheHashRegisters
  intro i s t
  exact hashRegsFrame_exec

/-! ### A command that succeeds -/

theorem commandFrame_complete {r : Option CmdError} (hf : Frame s u) : CommandFrame s (complete i r u) := by
  simp [CommandFrame, statusComplete_ovr, hf.ctrl, hf.src, hf.len, hf.dst, hf.status, hf.rst, hf.busMap, hf.agenda,
    hf.replies]

/-- The state in which a command that passes its checks and meets no bus error ends. -/
def successOf (i : Instr) (s : State) : State := complete i none (workOf i { s with port := s.port ++ portPlan i s })

theorem exec_eq_successOf (hc : checkOperands i s = none) (hq : PortQuiet i s) : exec i s = .next (successOf i s) := by
  rw [exec_eq_runChecked_workOf, runChecked_quiet _ _ _ hc hq, successOf]

theorem frame_worked (i : Instr) (s : State) : Frame s (workOf i { s with port := s.port ++ portPlan i s }) :=
  (frame_port s _).trans (frame_workOf i _)

theorem succeeded_successOf (i : Instr) (s : State) : Succeeded s (successOf i s) :=
  ⟨complete_phase i none _, (complete_status i none _).trans (by rw [(frame_worked i s).status]; rfl)⟩

theorem successOf_outlen (i : Instr) (s : State) : (successOf i s).outlen = BitVec.ofNat 64 (outBytes i s) := by
  simp [successOf, (frame_worked i s).outBytes]

theorem successOf_erraddr (i : Instr) (s : State) : (successOf i s).erraddr = s.erraddr :=
  (complete_erraddr i none _).trans (frame_worked i s).erraddr

theorem commandFrame_successOf (i : Instr) (s : State) : CommandFrame s (successOf i s) :=
  commandFrame_complete (frame_worked i s)

/-- Without an overlap or a race, the destination holds the command's output (20_memory.md R61). -/
theorem getElem?_outputBytes (hm : MemoryOk s) (hr : s.raced = []) (ho : padOverlaps i s = false) {k : Nat}
    (hk : k < outBytes i s) :
    (outputBytes i (message s) s)[k]? = some (readByte (successOf i s).mem (dstBase s + k)) := by
  have hf := frame_worked i s
  have hmem : (successOf i s).mem = writeBytes s.mem (dstBase s) (outputBytes i (message s) s) := by
    rw [successOf, complete_ok_mem i _ (by rw [hf.padOverlaps, ho]) (by rw [hf.raced, hr]), workOf_mem,
      (frame_port s _).outputBytes]
    rfl
  have hlen : k < (outputBytes i (message s) s).length := by rwa [length_outputBytes i (length_message s)]
  rw [hmem, readByte_writeBytes _ _ hm.1, if_pos (by omega), Nat.add_sub_cancel_left, List.getD_eq_getElem _ _ hlen,
    List.getElem?_eq_getElem hlen]

/-- The accesses of a HASH or PAD err nowhere if its source answers reads and its destination answers writes. -/
theorem portQuiet_of_answers (hg : geomOf i ≠ none) (hsrc : SourceAnswers s) (hdst : DestAnswers (outBytes i s) s) :
    PortQuiet i s := by
  intro x hx
  have hmem := (portPlan_perm hg s).mem_iff.1 hx
  simp only [readPlan, writePlan, List.mem_append, List.mem_map, List.mem_range'_1, Nat.zero_add] at hmem
  obtain ⟨q, ⟨-, hq⟩, rfl⟩ | ⟨k, ⟨-, hk⟩, rfl⟩ := hmem
  · exact hsrc q hq
  · exact hdst k hk

end

/-! ### PAD -/

section
variable {g : Geom} {s : State}

theorem padGeom_pad (g : Geom) : padGeom (.pad g) = some g := by cases g <;> rfl

theorem algOf_pad (g : Geom) : algOf (.pad g) = none := by cases g <;> rfl

theorem sizeOverflows_msgLen_eq_false (hsize : g ≠ .p1024 → msgLen s < 2 ^ 61) :
    sizeOverflows g (msgLen s) = false := by
  by_cases hg : g = .p1024
  · rw [hg, sizeOverflows_p1024_msgLen]
  · have hlen := hsize hg
    rw [Bool.eq_false_iff, Ne, sizeOverflows_iff, if_neg hg]
    omega

/-- A PAD whose length fits its field and whose ranges fit memory passes CHECK (60_exceptions.md R217, R218). -/
theorem checkOperands_pad (hsize : g ≠ .p1024 → msgLen s < 2 ^ 61) (hP : padLen g (msgLen s) ≤ 2 ^ 64 - 1)
    (hsrc : srcBase s + msgLen s ≤ 2 ^ 64) (hdst : dstBase s + padLen g (msgLen s) ≤ 2 ^ 64) :
    checkOperands (.pad g) s = none := by
  have hlimit : Config.addrLimit = 2 ^ 64 := rfl
  have hrange : rangeFails (.pad g) s = false := by
    simp only [rangeFails, outBytes_pad (padGeom_pad g), isPad_of_padGeom (padGeom_pad g), Bool.true_and,
      Bool.or_eq_false_iff, decide_eq_false_iff_not]
    omega
  simp [checkOperands, geomOf_of_padGeom (padGeom_pad g), sizeOverflows_msgLen_eq_false hsize, hrange]

/-- Where its output is possible, a PAD succeeds, whether or not its ranges overlap. -/
theorem exec_pad_eq_successOf (hsize : g ≠ .p1024 → msgLen s < 2 ^ 61) (hP : padLen g (msgLen s) ≤ 2 ^ 64 - 1)
    (h : OutputPossible (padLen g (msgLen s)) s) : exec (.pad g) s = .next (successOf (.pad g) s) := by
  obtain ⟨hsrc, hdst, hreads, hwrites, -, -⟩ := h
  have hpad := padGeom_pad g
  refine exec_eq_successOf (checkOperands_pad hsize hP hsrc hdst) (portQuiet_of_answers ?_ hreads ?_)
  · simp [geomOf_of_padGeom hpad]
  · rwa [outBytes_pad hpad]

/-- The ranges of a PAD share no address when the message is empty or one range lies below the other. -/
theorem padOverlaps_pad_eq_false
    (h : msgLen s = 0 ∨ srcBase s + msgLen s ≤ dstBase s ∨ dstBase s + padLen g (msgLen s) ≤ srcBase s) :
    padOverlaps (.pad g) s = false := by
  simp only [padOverlaps, outBytes_pad (padGeom_pad g), Bool.and_eq_false_iff, decide_eq_false_iff_not]
  omega

theorem message_eq_storedMessage (hr : s.raced = []) : message s = storedMessage s := by
  simp [message, storedMessage, sourceByte, hr]

theorem getElem?_storedMessage {q : Nat} (hq : q < msgLen s) :
    (storedMessage s)[q]? = some (readByte s.mem (srcBase s + q)) := by
  simp [storedMessage, hq]

theorem length_storedMessage (s : State) : (storedMessage s).length = msgLen s := by simp [storedMessage]

section
variable (hm : MemoryOk s) (hr : s.raced = []) (ho : padOverlaps (.pad g) s = false)
include hm hr ho

/-- The destination holds the padded buffer of the message as memory held it (40_padding.md R113). -/
theorem getElem?_padBytes_stored {q : Nat} (hq : q < padLen g (msgLen s)) :
    (padBytes g (storedMessage s))[q]? = some (readByte (successOf (.pad g) s).mem (dstBase s + q)) := by
  rw [← getElem?_outputBytes hm hr ho (by rwa [outBytes_pad (padGeom_pad g)]), outputBytes_pad (padGeom_pad g),
    message_eq_storedMessage hr]

theorem readByte_pad_message {q : Nat} (hq : q < msgLen s) :
    readByte (successOf (.pad g) s).mem (dstBase s + q) = readByte s.mem (srcBase s + q) := by
  have hroom := lt_padLen g (msgLen s)
  have hbyte := getElem?_padBytes_stored hm hr ho (q := q) (by omega)
  rw [getElem?_padBytes_message (by rwa [length_storedMessage]), getElem?_storedMessage hq] at hbyte
  exact (Option.some.inj hbyte).symm

theorem readByte_pad_tail {q : Nat} (hl : msgLen s ≤ q) (hq : q < padLen g (msgLen s)) :
    readByte (successOf (.pad g) s).mem (dstBase s + q) = padTail g (msgLen s) q := by
  have hbyte := getElem?_padBytes_stored hm hr ho hq
  rw [← length_storedMessage s] at hl hq
  rw [getElem?_padBytes_tail hl hq, length_storedMessage] at hbyte
  exact (Option.some.inj hbyte).symm

end

/-- Settles O24: the padded buffer is the message and then the bytes of `padTail`; the rest is what any success leaves. -/
theorem padResult : Obligations.PadResult := by
  unfold Obligations.PadResult
  intro g s hsize hP hposs hranges
  have hexec := exec_pad_eq_successOf hsize hP hposs
  obtain ⟨-, -, -, -, hr, hm⟩ := hposs
  have ho : padOverlaps (.pad g) s = false := padOverlaps_pad_eq_false hranges
  have hout := outBytes_pad (padGeom_pad g) s
  have hroom := lt_padLen g (msgLen s)
  refine ⟨successOf (.pad g) s, hexec, succeeded_successOf _ s, hout ▸ successOf_outlen _ s,
    fun q hq => readByte_pad_message hm hr ho hq, ?_, fun q hl hq => ?_, fun j hj => ?_, successOf_erraddr _ s,
    hashRegsFrame_exec (algOf_pad g) hexec, fun a ha => ?_, commandFrame_successOf _ s⟩
  · rw [readByte_pad_tail hm hr ho le_rfl (by omega), padTail_message_end]
  · rw [readByte_pad_tail hm hr ho hl.le (by omega), padTail_zero hl hq]
  · rw [readByte_pad_tail hm hr ho (by omega) (by omega), padTail_field]
  · exact readByte_exec_other hexec (hout ▸ ha) (by simp [ho])

/-- Settles O25: what any success leaves, and the bytes that no command touches outside its ranges. -/
theorem padOverlapOutcome : Obligations.PadOverlapOutcome := by
  unfold Obligations.PadOverlapOutcome
  intro g s hsize hP hposs _
  have hexec := exec_pad_eq_successOf hsize hP hposs
  have hout := outBytes_pad (padGeom_pad g) s
  exact ⟨successOf (.pad g) s, hexec, succeeded_successOf _ s, hout ▸ successOf_outlen _ s, successOf_erraddr _ s,
    hashRegsFrame_exec (algOf_pad g) hexec, commandFrame_successOf _ s,
    fun a hd hs => readByte_exec_other hexec (hout ▸ hd) fun _ => hs⟩

end

end Sys2Proof.PaddingRules

/-! ## MD5: the round functions, the working words, and the MD5 commands (41_md5.md) -/

namespace Sys2Proof.Md5Rules

open Sys2Proof.Machine Sys2Proof.Refinement Sys2Proof.StateRules Sys2Proof.MemoryRules Sys2Proof.PaddingRules

/-! ### The round and band functions, bit by bit -/

section
variable (b c d : Word) {j : Nat}

theorem getLsbD_md5F (hj : j < 32) :
    (md5F b c d).getLsbD j = if b.getLsbD j then c.getLsbD j else d.getLsbD j := by
  simp only [md5F, BitVec.getLsbD_or, BitVec.getLsbD_and, BitVec.getLsbD_not, hj]
  cases b.getLsbD j <;> simp

theorem getLsbD_md5G (hj : j < 32) :
    (md5G b c d).getLsbD j = if d.getLsbD j then b.getLsbD j else c.getLsbD j := by
  simp only [md5G, BitVec.getLsbD_or, BitVec.getLsbD_and, BitVec.getLsbD_not, hj]
  cases d.getLsbD j <;> simp

theorem getLsbD_md5H : (md5H b c d).getLsbD j = (b.getLsbD j ^^ (c.getLsbD j ^^ d.getLsbD j)) := by
  simp [md5H]

theorem getLsbD_md5I (hj : j < 32) : (md5I b c d).getLsbD j = (c.getLsbD j ^^ (b.getLsbD j || !d.getLsbD j)) := by
  simp [md5I, hj]

theorem getLsbD_sha1Majority :
    (sha1Majority b c d).getLsbD j =
      decide (2 ≤ (b.getLsbD j).toNat + (c.getLsbD j).toNat + (d.getLsbD j).toNat) := by
  simp only [sha1Majority, BitVec.getLsbD_or, BitVec.getLsbD_and]
  cases b.getLsbD j <;> cases c.getLsbD j <;> cases d.getLsbD j <;> rfl

theorem sha1Choose_eq_md5F : sha1Choose b c d = md5F b c d := rfl

theorem sha1Parity_eq_md5H : sha1Parity b c d = md5H b c d := rfl

end

/-! ### What a step index selects -/

/-- Step `k` of MD5's round `r`: its round, its place there, its column of the shift table (41_md5.md R130, R132). -/
theorem md5_index_parts {r k j : Nat} (hj : j = 16 * r + k) (hk : k < 16) :
    j / 16 = r ∧ j % 16 = k ∧ j % 4 = k % 4 := by
  omega

/-- Each round of MD5 with its function, message words and shifts (41_md5.md R130, R132, R134). -/
theorem md5_selects_round {k : Nat} (hk : k < 16) :
    (md5Fn k = md5F ∧ md5Idx k = k ∧ md5Shift k = [7, 12, 17, 22].getD (k % 4) 0) ∧
    (md5Fn (16 + k) = md5G ∧ md5Idx (16 + k) = (1 + 5 * k) % 16 ∧ md5Shift (16 + k) = [5, 9, 14, 20].getD (k % 4) 0) ∧
    (md5Fn (32 + k) = md5H ∧ md5Idx (32 + k) = (5 + 3 * k) % 16 ∧ md5Shift (32 + k) = [4, 11, 16, 23].getD (k % 4) 0) ∧
    (md5Fn (48 + k) = md5I ∧ md5Idx (48 + k) = (7 * k) % 16 ∧ md5Shift (48 + k) = [6, 10, 15, 21].getD (k % 4) 0) := by
  have h0 := md5_index_parts (r := 0) (j := k) (by omega) hk
  have h1 := md5_index_parts (r := 1) (j := 16 + k) (by omega) hk
  have h2 := md5_index_parts (r := 2) (j := 32 + k) (by omega) hk
  have h3 := md5_index_parts (r := 3) (j := 48 + k) (by omega) hk
  simp only [md5Fn, md5Idx, md5Shift, h0, h1, h2, h3, true_and]
  exact ⟨rfl, rfl, rfl, rfl⟩

/-- Each band of SHA-1 with its function and constant (42_sha1.md R163). -/
theorem sha1_selects_band {k : Nat} (hk : k < 20) :
    (sha1BandFn k = sha1Choose ∧ sha1BandK k = 0x5A827999) ∧
    (sha1BandFn (20 + k) = sha1Parity ∧ sha1BandK (20 + k) = 0x6ED9EBA1) ∧
    (sha1BandFn (40 + k) = sha1Majority ∧ sha1BandK (40 + k) = 0x8F1BBCDC) ∧
    (sha1BandFn (60 + k) = sha1Parity ∧ sha1BandK (60 + k) = 0xCA62C1D6) := by
  simp (disch := omega) only [sha1BandFn, sha1BandK, if_pos, if_neg, and_self]

/-- Settles O39: the functions bit by bit, then the four rounds and the four bands. -/
theorem roundFunctionsBitByBit : Obligations.RoundFunctionsBitByBit := by
  unfold Obligations.RoundFunctionsBitByBit
  refine ⟨fun b c d j hj => ⟨getLsbD_md5F b c d hj, getLsbD_md5G b c d hj, getLsbD_md5H b c d, getLsbD_md5I b c d hj,
    ?_, ?_, getLsbD_sha1Majority b c d⟩, fun k => md5_selects_round, fun k => sha1_selects_band⟩
  · rw [sha1Choose_eq_md5F, getLsbD_md5F b c d hj]
  · rw [sha1Parity_eq_md5H, getLsbD_md5H]

/-! ### The working words -/

section
variable (x : Vector Word 16) (w : Vector Word 80) (n : Nat) (u : Md5State) (v : Sha1State)

theorem md5Steps_succ_a : (md5Steps x (n + 1) u).a = (md5Steps x n u).d := by rw [md5Steps_succ]; rfl

theorem md5Steps_succ_c : (md5Steps x (n + 1) u).c = (md5Steps x n u).b := by rw [md5Steps_succ]; rfl

theorem md5Steps_succ_d : (md5Steps x (n + 1) u).d = (md5Steps x n u).c := by rw [md5Steps_succ]; rfl

theorem sha1Steps_succ_b : (sha1Steps w (n + 1) v).b = (sha1Steps w n v).a := by rw [sha1Steps_succ]; rfl

theorem sha1Steps_succ_c : (sha1Steps w (n + 1) v).c = rol32 (sha1Steps w n v).b 30 := by rw [sha1Steps_succ]; rfl

theorem sha1Steps_succ_d : (sha1Steps w (n + 1) v).d = (sha1Steps w n v).c := by rw [sha1Steps_succ]; rfl

theorem sha1Steps_succ_e : (sha1Steps w (n + 1) v).e = (sha1Steps w n v).d := by rw [sha1Steps_succ]; rfl

end

/-- Settles O41: each word is followed back, one step at a time, to the step that computed it. -/
theorem workingWordsShiftThrough : Obligations.WorkingWordsShiftThrough := by
  unfold Obligations.WorkingWordsShiftThrough
  refine ⟨fun x n w => ⟨?_, ?_, ?_⟩, fun w n v => ⟨?_, ?_, ?_, ?_⟩⟩
  · rw [md5Steps_succ_c]
  · rw [md5Steps_succ_d, md5Steps_succ_c]
  · rw [md5Steps_succ_a, md5Steps_succ_d, md5Steps_succ_c]
  · rw [sha1Steps_succ_b]
  · rw [sha1Steps_succ_c, sha1Steps_succ_b]
  · rw [sha1Steps_succ_d, sha1Steps_succ_c, sha1Steps_succ_b]
  · rw [sha1Steps_succ_e, sha1Steps_succ_d, sha1Steps_succ_c, sha1Steps_succ_b]

/-! ### The commands that access no memory -/

section
variable {i : Instr}

/-- What NOP, INIT and COMPRESS leave, whatever the state: their work in the hash registers, and nothing else. -/
theorem exists_exec_of_no_message (hg : geomOf i = none) (s : State) :
    ∃ t, exec i s = .next t ∧ HashRegsFrame (workOf i s) t ∧ Succeeded s t ∧ t.outlen = 0 ∧ t.erraddr = s.erraddr ∧
      MemoryFrame s t ∧ t.port = s.port ∧ CommandFrame s t := by
  have hexec : exec i s = .next (complete i none (workOf i s)) := by
    rw [exec_eq_runChecked_workOf, runChecked_of_no_message hg]
  have hf := frame_workOf i s
  have hend := completed_complete (i := i) (r := none) hf
  have hout : outBytes i s = 0 := outBytes_of_no_message hg s
  refine ⟨_, hexec, hashRegsFrame_complete_none i _, ⟨hend.phase, hend.status⟩, ?_, hend.erraddr, fun a => ?_, ?_,
    commandFrame_complete hf⟩
  · simp [hf.outBytes, hout]
  · refine readByte_exec_other hexec (by omega) fun ho => ?_
    obtain ⟨g, hpad⟩ := exists_padGeom_of_isPad (isPad_of_padOverlaps ho)
    cases (geomOf_of_padGeom hpad).symm.trans hg
  · rw [complete_port, workOf_port]

end

/-- Settles O14: INIT_H is the whole work of the command. -/
theorem initMd5Result : Obligations.InitMd5Result := by
  unfold Obligations.InitMd5Result
  intro s
  obtain ⟨t, hexec, hregs, hok, hout, herr, hmem, hport, hframe⟩ := exists_exec_of_no_message (i := .initMd5) rfl s
  obtain ⟨h0, h1, h2, h3, h4, hblk, hcnt⟩ := hregs
  exact ⟨t, hexec, hok, hout, h0, h1, h2, h3, hcnt, h4, hblk, herr, hmem, hport, hframe⟩

/-- Settles O16: the block function is the final addition to the snapshot. -/
theorem compressMd5Result : Obligations.CompressMd5Result := by
  unfold Obligations.CompressMd5Result
  intro s
  obtain ⟨t, hexec, hregs, hok, hout, herr, hmem, hport, hframe⟩ := exists_exec_of_no_message (i := .compressMd5) rfl s
  simp only [HashRegsFrame, workOf, compressRegs, compressMd5Regs, setMd5Block_h0, setMd5Block_h1, setMd5Block_h2,
    setMd5Block_h3, setMd5Block_h4, setMd5Block_blk, setMd5Block_blkcnt, ← md5Compress_eq] at hregs
  obtain ⟨h0, h1, h2, h3, h4, hblk, hcnt⟩ := hregs
  exact ⟨t, hexec, hok, hout, h0, h1, h2, h3, hcnt, h4, hblk, herr, hmem, hport, hframe⟩

/-! ### What the MD5 commands do not read -/

/-- The state with H4 replaced. -/
def withH4 (v : Word) (s : State) : State := { s with h4 := v }

/-- The state with H4 and the latched SHA1_LE replaced. -/
def withH4Sha1Le (v : Word) (le : Bool) (s : State) : State := { s with h4 := v, eng := { s.eng with sha1Le := le } }

theorem md5_cases {i : Instr} (hi : algOf i = some .md5) : i = .initMd5 ∨ i = .compressMd5 ∨ i = .hashMd5 := by
  cases i <;> simp_all [algOf]

section
variable {i : Instr} (hi : algOf i = some .md5) (v : Word) (le : Bool) (s : State)
include hi

theorem padOverlaps_of_md5 : padOverlaps i s = false := by
  obtain rfl | rfl | rfl := md5_cases hi <;> rfl

theorem workOf_withH4Sha1Le : workOf i (withH4Sha1Le v le s) = withH4Sha1Le v le (workOf i s) := by
  cases s
  obtain rfl | rfl | rfl := md5_cases hi <;> rfl

/-- A bus error of HASH.MD5 spoils H0..H3 alone (10_state.md R51, 60_exceptions.md R219). -/
theorem unsettle_withH4Sha1Le (r : Option CmdError) :
    unsettle i r (withH4Sha1Le v le s) = withH4Sha1Le v le (unsettle i r s) := by
  rcases r with _ | e
  · simp only [unsettle, padOverlaps_of_md5 hi]
    rfl
  · cases e with
    | size | cmd | addr => rfl
    | bus a => obtain rfl | rfl | rfl := md5_cases hi <;> rfl

/-- Completion leaves nothing of the latched SHA1_LE: the engine's internal state is free (10_state.md R40). -/
theorem complete_withH4Sha1Le (r : Option CmdError) :
    complete i r (withH4Sha1Le v le s) = withH4 v (complete i r s) := by
  simp only [complete, unsettle_withH4Sha1Le hi]
  rfl

theorem runChecked_withH4Sha1Le :
    runChecked i (workOf i) (withH4Sha1Le v le s) = withH4 v (runChecked i (workOf i) s) := by
  have hcheck : checkOperands i (withH4Sha1Le v le s) = checkOperands i s := checkOperands_congr i _ _ rfl rfl rfl
  have hplan : portPlan i (withH4Sha1Le v le s) = portPlan i s := rfl
  have haccess (port : List Access) :
      { withH4Sha1Le v le s with port := s.port ++ port } = withH4Sha1Le v le { s with port := s.port ++ port } := rfl
  obtain ⟨e, hc, heq⟩ | ⟨hc, hq, heq⟩ | ⟨before, x, after, hc, hp, hb, hx, heq⟩ := runChecked_cases i (workOf i) s
  · rw [heq, runChecked_failed i _ _ e (hcheck.trans hc), complete_withH4Sha1Le hi]
  · rw [heq, runChecked_quiet i _ _ (hcheck.trans hc) hq, hplan, ← complete_withH4Sha1Le hi v le,
      ← workOf_withH4Sha1Le hi]
    exact congrArg (fun u => complete i none (workOf i u)) (haccess _)
  · rw [heq, runChecked_bus i _ _ before after x (hcheck.trans hc) (hplan.trans hp) hb hx,
      ← complete_withH4Sha1Le hi v le]
    exact congrArg (complete i _) (haccess _)

end

section
variable {i : Instr} {s t : State} (hi : algOf i = some .md5) (ht : exec i s = .next t)
include hi ht

theorem exec_withH4Sha1Le (v : Word) (le : Bool) : exec i (withH4Sha1Le v le s) = .next (withH4 v t) := by
  rw [exec_eq_runChecked_workOf] at ht ⊢
  cases ht
  rw [runChecked_withH4Sha1Le hi]

/-- A command that carries any H4 through carries its own through. -/
theorem exec_md5_h4 : t.h4 = s.h4 := by
  have hsame : exec i s = .next (withH4 s.h4 t) := exec_withH4Sha1Le hi ht s.h4 s.eng.sha1Le
  rw [ht, Host.Outcome.next.injEq] at hsame
  rw [hsame]
  rfl

theorem exec_withSha1Le (le : Bool) : exec i { s with eng := { s.eng with sha1Le := le } } = .next t := by
  have hown : withH4 s.h4 t = t := by rw [← exec_md5_h4 hi ht]; rfl
  exact hown ▸ exec_withH4Sha1Le hi ht s.h4 le

end

/-- Settles O18: H4 and the latched SHA1_LE are unread by the MD5 commands, and CTRL by every command. -/
theorem md5IgnoresH4AndSha1Le : Obligations.Md5IgnoresH4AndSha1Le := by
  unfold Obligations.Md5IgnoresH4AndSha1Le
  intro i s t hi ht
  exact ⟨exec_md5_h4 hi ht, fun v => exec_withH4Sha1Le hi ht v s.eng.sha1Le,
    fun c => ctrlDoesNotReachTheRunningCommand.1 i s t c ht, exec_withSha1Le hi ht⟩

/-! ### HASH of a message that fits -/

section
variable {i : Instr} {g : Geom} {alg : Alg} {s : State} (hi : hashOf i = some (g, alg))
include hi

/-- A HASH whose length fits its field and whose ranges fit memory passes CHECK (60_exceptions.md R217, R218). -/
theorem checkOperands_hash (hlen : msgLen s < 2 ^ 61) (hsrc : srcBase s + msgLen s ≤ 2 ^ 64)
    (hdst : dstBase s + outBytes i s ≤ 2 ^ 64) : checkOperands i s = none := by
  have hlimit : Config.addrLimit = 2 ^ 64 := rfl
  have hrange : rangeFails i s = false := by
    simp only [rangeFails, isPad_of_hashOf hi, Bool.false_and, Bool.or_false, Bool.or_eq_false_iff,
      decide_eq_false_iff_not]
    omega
  simp [checkOperands, geomOf_of_hashOf hi, sizeOverflows_msgLen_eq_false fun _ => hlen, hrange]

theorem exec_hash_eq_successOf (hlen : msgLen s < 2 ^ 61) (h : OutputPossible (outBytes i s) s) :
    exec i s = .next (successOf i s) := by
  obtain ⟨hsrc, hdst, hreads, hwrites, -, -⟩ := h
  exact exec_eq_successOf (checkOperands_hash hi hlen hsrc hdst)
    (portQuiet_of_answers (by simp [geomOf_of_hashOf hi]) hreads hwrites)

theorem padOverlaps_hash (s : State) : padOverlaps i s = false := by
  simp [padOverlaps, isPad_of_hashOf hi]

theorem workOf_hash (s : State) : workOf i s = outputOf i (message s) s := by
  obtain ⟨rfl, -, -⟩ | ⟨rfl, -, -⟩ := hashOf_cases hi <;> rfl

/-- Both HASH commands hash 64-byte blocks, P / 64 of them (40_padding.md R107). -/
theorem padLen_hash_div (l : Nat) : padLen g l / 64 = (l + 72) / 64 := by
  obtain ⟨-, rfl, -⟩ | ⟨-, rfl, -⟩ := hashOf_cases hi
  · rw [padLen_p512le, Nat.mul_div_cancel _ (by decide)]
  · rw [padLen_p512, Nat.mul_div_cancel _ (by decide)]

/-- The hash registers that a HASH without races leaves (41_md5.md R148, 42_sha1.md R182). -/
theorem successOf_hash_regs (hr : s.raced = []) :
    sha1H5 (successOf i s) = chainWords alg (padBytes g (storedMessage s)) ((msgLen s + 72) / 64) s ∧
    (successOf i s).blk = streamBlock (padBytes g (storedMessage s)) ((msgLen s + 72) / 64 - 1) ∧
    (successOf i s).blkcnt = BitVec.ofNat 64 ((msgLen s + 72) / 64) := by
  have hwork := (workOf_hash hi { s with port := s.port ++ portPlan i s }).trans
    (congrArg (outputOf i · _) (message_eq_storedMessage hr))
  have hregs :
      HashRegsFrame (outputOf i (storedMessage s) { s with port := s.port ++ portPlan i s }) (successOf i s) := by
    rw [successOf, hwork]
    exact hashRegsFrame_complete_none i _
  obtain ⟨hwords, hblk, hcnt⟩ := hashRegsFrame_iff.1 hregs
  rw [hwords, hblk, hcnt, outputOf_hash_h5 hi, outputOf_hash_blk hi, outputOf_hash_blkcnt hi, length_storedMessage,
    padLen_hash_div hi]
  obtain ⟨-, -, rfl⟩ | ⟨-, -, rfl⟩ := hashOf_cases hi <;> exact ⟨rfl, rfl, rfl⟩

/-- Without a race the destination holds the digest of the message as memory held it. -/
theorem getElem?_digest_stored (hm : MemoryOk s) (hr : s.raced = []) {k : Nat} (hk : k < outBytes i s) :
    (outputBytes i (storedMessage s) s)[k]? = some (readByte (successOf i s).mem (dstBase s + k)) := by
  rw [← message_eq_storedMessage hr]
  exact getElem?_outputBytes hm hr (padOverlaps_hash hi s) hk

end

theorem md5_eq_outputBytes {m : List Byte} (hsize : sizeOverflows .p512le m.length = false) (s : State) :
    md5 m = some (outputBytes .hashMd5 m s) := by
  rw [md5, pad_eq_some_iff.2 ⟨hsize, rfl⟩]
  rfl

theorem md5H4_of_chainWords {t s : State} {pd : List Byte} {n : Nat} (h : sha1H5 t = chainWords .md5 pd n s) :
    md5H4 t = md5Chain pd n ∧ t.h4 = s.h4 := by
  simp only [sha1H5, chainWords, Sha1State.mk.injEq] at h
  obtain ⟨ha, hb, hc, hd, he⟩ := h
  exact ⟨by rw [md5H4, ha, hb, hc, hd], he⟩

/-- Settles O19: digest and hash registers are those of the stored message; the rest is what any success leaves. -/
theorem hashMd5Result : Obligations.HashMd5Result := by
  unfold Obligations.HashMd5Result
  intro s hlen hposs
  have hi : hashOf .hashMd5 = some (.p512le, .md5) := rfl
  have hexec := exec_hash_eq_successOf hi hlen hposs
  obtain ⟨-, -, -, -, hr, hm⟩ := hposs
  obtain ⟨hwords, hblk, hcnt⟩ := successOf_hash_regs hi hr
  obtain ⟨hchain, h4⟩ := md5H4_of_chainWords hwords
  have hdigest : md5 (storedMessage s) = some (outputBytes .hashMd5 (storedMessage s) s) :=
    md5_eq_outputBytes (by rw [length_storedMessage]; exact sizeOverflows_msgLen_eq_false fun _ => hlen) s
  exact ⟨successOf .hashMd5 s, _, hexec, hdigest, fun k => getElem?_digest_stored hi hm hr,
    length_outputBytes .hashMd5 (length_storedMessage s), succeeded_successOf _ s, successOf_outlen _ s, hchain, hcnt,
    hblk, h4, successOf_erraddr _ s, fun a ha => readByte_exec_other hexec ha (by simp [padOverlaps_hash hi]),
    commandFrame_successOf _ s⟩

end Sys2Proof.Md5Rules

/-! ## SHA-1: the schedule, and the SHA-1 commands (42_sha1.md) -/

namespace Sys2Proof.Sha1Rules

open Sys2Proof.Machine Sys2Proof.Refinement Sys2Proof.StateRules Sys2Proof.MemoryRules Sys2Proof.PaddingRules
  Sys2Proof.Md5Rules

/-! ### HASH of a message that fits -/

theorem sha1_eq_outputBytes {m : List Byte} (hsize : sizeOverflows .p512 m.length = false) (s : State) :
    sha1 m s.eng.sha1Le = some (outputBytes .hashSha1 m s) := by
  rw [sha1, pad_eq_some_iff.2 ⟨hsize, rfl⟩]
  rfl

/-- Settles O20: digest and hash registers are those of the stored message; the rest is what any success leaves. -/
theorem hashSha1Result : Obligations.HashSha1Result := by
  unfold Obligations.HashSha1Result
  intro s hlen hposs
  have hi : hashOf .hashSha1 = some (.p512, .sha1) := rfl
  have hexec := exec_hash_eq_successOf hi hlen hposs
  obtain ⟨-, -, -, -, hr, hm⟩ := hposs
  obtain ⟨hchain, hblk, hcnt⟩ := successOf_hash_regs hi hr
  have hdigest : sha1 (storedMessage s) s.eng.sha1Le = some (outputBytes .hashSha1 (storedMessage s) s) :=
    sha1_eq_outputBytes (by rw [length_storedMessage]; exact sizeOverflows_msgLen_eq_false fun _ => hlen) s
  exact ⟨successOf .hashSha1 s, _, hexec, hdigest, fun k => getElem?_digest_stored hi hm hr,
    length_outputBytes .hashSha1 (length_storedMessage s), succeeded_successOf _ s, successOf_outlen _ s, hchain, hcnt,
    hblk, successOf_erraddr _ s, fun a ha => readByte_exec_other hexec ha (by simp [padOverlaps_hash hi]),
    commandFrame_successOf _ s⟩

/-! ### The schedule -/

section
variable (w : Vector Word 80) {x i : Nat}

theorem scheduleWord_sha1Expand_same (hx : x < 80) :
    scheduleWord (sha1Expand w x) x =
      rol32 (scheduleWord w (x - 3) ^^^ scheduleWord w (x - 8) ^^^ scheduleWord w (x - 14) ^^^
        scheduleWord w (x - 16)) 1 := by
  rw [sha1Expand, scheduleWord, Vector.toList_setIfInBounds, List.getD_eq_getElem?_getD,
    List.getElem?_set_self (by simpa using hx), Option.getD_some]

theorem scheduleWord_sha1Expand_other (h : x ≠ i) : scheduleWord (sha1Expand w x) i = scheduleWord w i := by
  rw [sha1Expand, scheduleWord, Vector.toList_setIfInBounds, List.getD_eq_getElem?_getD, List.getElem?_set_ne h,
    ← List.getD_eq_getElem?_getD, scheduleWord]

end

section
variable (blk : Block)

theorem scheduleWord_sha1Load (j : Fin 16) :
    scheduleWord (sha1Load blk) j.val =
      be32 blk[4 * j.val] blk[4 * j.val + 1] blk[4 * j.val + 2] blk[4 * j.val + 3] := by
  have hj : j.val < 80 := by omega
  rw [scheduleWord, List.getD_eq_getElem _ _ (by simpa using hj), Vector.getElem_toList, sha1Load, Vector.getElem_ofFn,
    dif_pos j.isLt]

/-- The schedule with its words 16 .. 15 + n expanded (42_sha1.md R161); `sha1Schedule` is the one with `n = 64`. -/
def scheduleTo (n : Nat) : Vector Word 80 := (List.range n).foldl (fun w i => sha1Expand w (16 + i)) (sha1Load blk)

theorem scheduleTo_zero : scheduleTo blk 0 = sha1Load blk := rfl

theorem scheduleTo_succ (n : Nat) : scheduleTo blk (n + 1) = sha1Expand (scheduleTo blk n) (16 + n) := by
  simp [scheduleTo, List.range_succ]

variable {i n : Nat}

/-- Expansion writes ascending words: one that stands is never written again. -/
theorem scheduleWord_scheduleTo_add (hi : i < 16 + n) (k : Nat) :
    scheduleWord (scheduleTo blk (n + k)) i = scheduleWord (scheduleTo blk n) i := by
  induction k with
  | zero => rfl
  | succ k ih => rw [← Nat.add_assoc, scheduleTo_succ, scheduleWord_sha1Expand_other _ (by omega), ih]

theorem scheduleWord_sha1Schedule (hn : n ≤ 64) (hi : i < 16 + n) :
    scheduleWord (sha1Schedule blk) i = scheduleWord (scheduleTo blk n) i := by
  have hlater := scheduleWord_scheduleTo_add blk hi (64 - n)
  rwa [Nat.add_sub_cancel' hn] at hlater

end

/-- Settles O40: word `16 + n` stands once it is expanded, and the words it is made of stand before that. -/
theorem scheduleRecurrence : Obligations.ScheduleRecurrence := by
  unfold Obligations.ScheduleRecurrence
  refine fun blk => ⟨fun j => ?_, fun x hx hx80 => ?_⟩
  · rw [scheduleWord_sha1Schedule blk (Nat.zero_le 64) j.isLt, scheduleTo_zero, scheduleWord_sha1Load]
  · obtain ⟨n, rfl⟩ := Nat.exists_eq_add_of_le hx
    have hn : n < 64 := by omega
    have hstands {i : Nat} (hi : i < 16 + n) := scheduleWord_sha1Schedule blk hn.le hi
    have hlast : 16 + n < 16 + (n + 1) := by omega
    rw [scheduleWord_sha1Schedule blk hn hlast, scheduleTo_succ, scheduleWord_sha1Expand_same _ hx80]
    simp (disch := omega) only [hstands]

/-! ### The commands that access no memory -/

/-- Settles O15: INIT_H is the whole work of the command. -/
theorem initSha1Result : Obligations.InitSha1Result := by
  unfold Obligations.InitSha1Result
  intro s
  obtain ⟨t, hexec, hregs, hok, hout, herr, hmem, hport, hframe⟩ := exists_exec_of_no_message (i := .initSha1) rfl s
  obtain ⟨h0, h1, h2, h3, h4, hblk, hcnt⟩ := hregs
  exact ⟨t, hexec, hok, hout, h0, h1, h2, h3, h4, hcnt, hblk, herr, hmem, hport, hframe⟩

/-- Settles O17: the block function is the final addition to the snapshot. -/
theorem compressSha1Result : Obligations.CompressSha1Result := by
  unfold Obligations.CompressSha1Result
  intro s
  obtain ⟨t, hexec, hregs, hok, hout, herr, hmem, hport, hframe⟩ := exists_exec_of_no_message (i := .compressSha1) rfl s
  simp only [HashRegsFrame, workOf, compressRegs, compressSha1Regs_h0, compressSha1Regs_h1, compressSha1Regs_h2,
    compressSha1Regs_h3, compressSha1Regs_h4, compressSha1Regs_blk, compressSha1Regs_blkcnt, ← sha1Compress_eq] at hregs
  obtain ⟨h0, h1, h2, h3, h4, hblk, hcnt⟩ := hregs
  exact ⟨t, hexec, hok, hout, h0, h1, h2, h3, h4, hcnt, hblk, herr, hmem, hport, hframe⟩

end Sys2Proof.Sha1Rules

/-! ## Control: acceptance, the step of an accepted command, and what HASH is made of (43_control.md) -/

namespace Sys2Proof.ControlRules

open Sys2Proof.Machine Sys2Proof.Refinement Sys2Proof.StateRules Sys2Proof.PaddingRules Sys2Proof.Md5Rules
  Sys2Proof.Sha1Rules

/-! ### Acceptance, and the step of an accepted word -/

section
variable {i : Instr} {s t : State}

/-- A CMD write while idle is the acceptance of its word (43_control.md R193). -/
theorem step_cmdWrite_idle {w : Word} {rest : List Event} (ha : s.agenda = hostWR .cmd w :: rest) (hrst : s.rst = false)
    (hb : s.status.busy = false) : step s = .next (reply .done (accept w { s with agenda := rest })) := by
  have hidle : writeReg .cmd w { s with agenda := rest } = accept w { s with agenda := rest } := by
    simp [writeReg, writeCmd, hb]
  rw [step_hostWR .cmd w s rest ha hrst, hidle]

/-- Settles O5: the step is `accept`, whose latches, flags and frame are read off. -/
theorem cmdWriteIsAccepted : Obligations.CmdWriteIsAccepted := by
  unfold Obligations.CmdWriteIsAccepted
  intro s w rest ha hrst hb
  exact ⟨_, step_cmdWrite_idle ha hrst hb, rfl, rfl, rfl, rfl, rfl, rfl, rfl, rfl, rfl, rfl, rfl, rfl, rfl, rfl, rfl,
    ⟨rfl, rfl, rfl, rfl, rfl, rfl, rfl⟩, rfl, rfl, rfl⟩

/-- The engine's turn on an accepted command is the whole command (43_control.md R194, R195). -/
theorem engineAct_of_accepted (h : Accepted s i) : engineAct s = exec i s := by
  obtain ⟨hphase, hdecode⟩ := h
  rw [engineAct, if_pos hphase, runAccepted, hdecode]

/-- Settles O4: with no input, and under WAIT while busy, the step is the engine's turn. -/
theorem stepRunsTheDecodedInstruction : Obligations.StepRunsTheDecodedInstruction := by
  unfold Obligations.StepRunsTheDecodedInstruction
  intro s i h
  refine ⟨fun ha => ?_, fun rest ha hb => ?_⟩
  · rw [step, ha]
    exact engineAct_of_accepted h
  · rw [step, ha]
    exact (if_pos hb).trans (engineAct_of_accepted h)

/-! ### The end of a command -/

theorem ended_of_completed {r : Option CmdError} (h : Completed r s t) : Ended t := by
  refine ⟨h.phase, ?_⟩
  rw [h.status]
  cases r with
  | none => exact ⟨rfl, rfl⟩
  | some e => exact ⟨rfl, rfl⟩

/-- However it ends, a command keeps the state that no command writes (10_state.md R51). -/
theorem commandFrame_exec (h : exec i s = .next t) : CommandFrame s t := by
  obtain ⟨e, -, rfl⟩ | ⟨-, rfl⟩ | ⟨before, x, -, rfl⟩ := exec_cases h
  · exact commandFrame_complete (.refl s)
  · exact commandFrame_complete (frame_worked i s)
  · exact commandFrame_complete (frame_port s _)

/-- Settles O7: every command answers a state, and each of its endings is a completion that keeps the frame. -/
theorem everyCommandEnds : Obligations.EveryCommandEnds := by
  unfold Obligations.EveryCommandEnds
  intro i s
  have hexec := exec_eq_runChecked_workOf i s
  obtain ⟨r, hend⟩ := completed_of_exec hexec
  exact ⟨_, hexec, ended_of_completed hend, hend.raced, commandFrame_exec hexec⟩

/-- Settles O13: NOP has no message and no work. -/
theorem nopResult : Obligations.NopResult := by
  unfold Obligations.NopResult
  intro s
  obtain ⟨t, hexec, hregs, hok, hout, herr, hmem, hport, hframe⟩ := exists_exec_of_no_message (i := .nop) rfl s
  exact ⟨t, hexec, hok, hout, herr, hregs, hmem, hport, hframe⟩

end

/-! ### HASH of the same message -/

theorem msgLen_eq_of_storedMessage_eq {s1 s2 : State} (h : storedMessage s1 = storedMessage s2) :
    msgLen s2 = msgLen s1 := by
  rw [← length_storedMessage s1, h, length_storedMessage]

theorem md5H4_eq_of_sha1H5_eq {t u : State} (h : sha1H5 t = sha1H5 u) : md5H4 t = md5H4 u :=
  congrArg (fun v : Sha1State => Md5State.mk v.a v.b v.c v.d) h

section
variable {i : Instr} {g : Geom} {alg : Alg} {s1 s2 : State} (hi : hashOf i = some (g, alg))
include hi

/-- The length of a digest is the algorithm's, whatever the state. -/
theorem outBytes_hash (u v : State) : outBytes i u = outBytes i v := by
  obtain ⟨rfl, -, -⟩ | ⟨rfl, -, -⟩ := hashOf_cases hi <;> rfl

variable (hmsg : storedMessage s1 = storedMessage s2)
include hmsg

section
variable (hr1 : s1.raced = []) (hr2 : s2.raced = [])
include hr1 hr2

/-- The chaining words of a HASH are a function of its message; what MD5 leaves in H4 is not (41_md5.md R152). -/
theorem hash_words_agree :
    md5H4 (successOf i s1) = md5H4 (successOf i s2) ∧
    (alg = .sha1 → sha1H5 (successOf i s1) = sha1H5 (successOf i s2)) := by
  obtain ⟨hwords1, -, -⟩ := successOf_hash_regs hi hr1
  obtain ⟨hwords2, -, -⟩ := successOf_hash_regs hi hr2
  rw [hmsg, ← msgLen_eq_of_storedMessage_eq hmsg] at hwords1
  cases alg with
  | md5 => exact ⟨(md5H4_of_chainWords hwords1).1.trans (md5H4_of_chainWords hwords2).1.symm, nofun⟩
  | sha1 =>
    have hwords := hwords1.trans hwords2.symm
    exact ⟨md5H4_eq_of_sha1H5_eq hwords, fun _ => hwords⟩

theorem hash_blkcnt_agree : (successOf i s1).blkcnt = (successOf i s2).blkcnt := by
  obtain ⟨-, -, hcnt1⟩ := successOf_hash_regs hi hr1
  obtain ⟨-, -, hcnt2⟩ := successOf_hash_regs hi hr2
  rw [hcnt1, hcnt2, msgLen_eq_of_storedMessage_eq hmsg]

/-- The digest bytes are a function of the message and, for SHA-1, of the latched byte order. -/
theorem hash_digest_agree (hm1 : MemoryOk s1) (hm2 : MemoryOk s2) (hle : alg = .sha1 → s1.eng.sha1Le = s2.eng.sha1Le)
    {k : Nat} (hk : k < outBytes i s1) :
    readByte (successOf i s1).mem (dstBase s1 + k) = readByte (successOf i s2).mem (dstBase s2 + k) := by
  have hdigest : outputBytes i (storedMessage s1) s1 = outputBytes i (storedMessage s2) s2 := by
    rw [hmsg]
    obtain ⟨rfl, -, -⟩ | ⟨rfl, -, rfl⟩ := hashOf_cases hi
    · rfl
    · rw [outputBytes, outputBytes, hle rfl]
  have hk2 : k < outBytes i s2 := by rwa [outBytes_hash hi s2 s1]
  apply Option.some.inj
  rw [← getElem?_digest_stored hi hm1 hr1 hk, ← getElem?_digest_stored hi hm2 hr2 hk2, hdigest]

end

/-- Where both outputs are possible, both commands succeed, and they agree on words, count and digest. -/
theorem exists_exec_hash_agree (hlen1 : msgLen s1 < 2 ^ 61) (hle : alg = .sha1 → s1.eng.sha1Le = s2.eng.sha1Le)
    (h1 : OutputPossible (outBytes i s1) s1) (h2 : OutputPossible (outBytes i s2) s2) :
    ∃ t1 t2, exec i s1 = .next t1 ∧ exec i s2 = .next t2 ∧
      (md5H4 t1 = md5H4 t2 ∧ (alg = .sha1 → sha1H5 t1 = sha1H5 t2)) ∧ t1.blkcnt = t2.blkcnt ∧
      ∀ k, k < outBytes i s1 → readByte t1.mem (dstBase s1 + k) = readByte t2.mem (dstBase s2 + k) := by
  have hlen2 : msgLen s2 < 2 ^ 61 := by rwa [msgLen_eq_of_storedMessage_eq hmsg]
  have hexec1 := exec_hash_eq_successOf hi hlen1 h1
  have hexec2 := exec_hash_eq_successOf hi hlen2 h2
  obtain ⟨-, -, -, -, hr1, hm1⟩ := h1
  obtain ⟨-, -, -, -, hr2, hm2⟩ := h2
  exact ⟨_, _, hexec1, hexec2, hash_words_agree hi hmsg hr1 hr2, hash_blkcnt_agree hi hmsg hr1 hr2,
    fun k hk => hash_digest_agree hi hmsg hr1 hr2 hm1 hm2 hle hk⟩

end

/-- Settles O21: MD5 shows the four words it writes, SHA-1 all five. -/
theorem hashIsDeterministic : Obligations.HashIsDeterministic := by
  unfold Obligations.HashIsDeterministic
  intro s1 s2 hmsg hlen
  constructor
  · intro h1 h2
    obtain ⟨t1, t2, hexec1, hexec2, ⟨hwords, -⟩, hrest⟩ :=
      exists_exec_hash_agree (i := .hashMd5) rfl hmsg hlen nofun h1 h2
    exact ⟨t1, t2, hexec1, hexec2, hwords, hrest⟩
  · intro h1 h2 hle
    obtain ⟨t1, t2, hexec1, hexec2, ⟨-, hwords⟩, hrest⟩ :=
      exists_exec_hash_agree (i := .hashSha1) rfl hmsg hlen (fun _ => hle) h1 h2
    exact ⟨t1, t2, hexec1, hexec2, hwords rfl, hrest⟩

/-! ### HASH as INIT and one COMPRESS for each block (43_control.md R205) -/

/-- INIT of an engine. -/
def initOf : Alg → Instr
  | .md5 => .initMd5
  | .sha1 => .initSha1

/-- COMPRESS of an engine. -/
def compressOf : Alg → Instr
  | .md5 => .compressMd5
  | .sha1 => .compressSha1

/-- The state after INIT and then, for each of the first `n` blocks of a padded stream, the block written to BLK and
COMPRESS. -/
def blockwise (alg : Alg) (pd : List Byte) (s : State) : Nat → State
  | 0 => complete (initOf alg) none (initRegs alg s)
  | n + 1 =>
    complete (compressOf alg) none (compressRegs alg { blockwise alg pd s n with blk := streamBlock pd n })

/-- The digest that chaining words make (41_md5.md R145, 42_sha1.md R179). -/
def digestOf (alg : Alg) (le : Bool) (h : Sha1State) : List Byte :=
  match alg with
  | .md5 => md5DigestBytes { a := h.a, b := h.b, c := h.c, d := h.d }
  | .sha1 => sha1DigestBytes h le

section
variable (alg : Alg) (pd : List Byte) (s : State)

theorem exec_initOf : exec (initOf alg) s = .next (blockwise alg pd s 0) := by
  cases alg with
  | md5 => rfl
  | sha1 => rfl

theorem exec_compressOf (n : Nat) :
    exec (compressOf alg) { blockwise alg pd s n with blk := streamBlock pd n } =
      .next (blockwise alg pd s (n + 1)) := by
  cases alg with
  | md5 => rfl
  | sha1 => rfl

theorem sha1H5_complete_none (i : Instr) (u : State) : sha1H5 (complete i none u) = sha1H5 u :=
  (hashRegsFrame_iff.1 (hashRegsFrame_complete_none i u)).1

theorem sha1H5_withBlk (u : State) (blk : Block) : sha1H5 { u with blk := blk } = sha1H5 u := rfl

/-- Command by command the chaining words are those of the stream's blocks; MD5 keeps H4 throughout (41_md5.md R152). -/
theorem sha1H5_blockwise (n : Nat) : sha1H5 (blockwise alg pd s n) = chainWords alg pd n s := by
  induction n with
  | zero => rw [blockwise, sha1H5_complete_none, chainWords_zero alg pd s s rfl]
  | succ n ih =>
    rw [blockwise, sha1H5_complete_none, compressRegs_h5, sha1H5_withBlk, ih, chainWords_succ]

theorem initRegs_blkcnt : (initRegs alg s).blkcnt = 0 := by
  cases alg with
  | md5 => exact initMd5Regs_blkcnt s
  | sha1 => exact initSha1Regs_blkcnt s

/-- INIT clears BLKCNT and each COMPRESS counts (10_state.md R33). -/
theorem blockwise_blkcnt (n : Nat) : (blockwise alg pd s n).blkcnt = BitVec.ofNat 64 n := by
  induction n with
  | zero => simp [blockwise, initRegs_blkcnt]
  | succ n ih => simp [blockwise, ih, BitVec.ofNat_add]

end

section
variable {i : Instr} {g : Geom} {alg : Alg} {s t : State} (hi : hashOf i = some (g, alg))
include hi

/-- The digest of a HASH is made of the chaining words after its last block. -/
theorem outputBytes_hash :
    outputBytes i (storedMessage s) s =
      digestOf alg s.eng.sha1Le (chainWords alg (padBytes g (storedMessage s)) ((msgLen s + 72) / 64) s) := by
  have hblocks : (padBytes g (storedMessage s)).length / 64 = (msgLen s + 72) / 64 := by
    rw [length_padBytes, length_storedMessage, padLen_hash_div hi]
  rw [← hblocks]
  obtain ⟨rfl, rfl, rfl⟩ | ⟨rfl, rfl, rfl⟩ := hashOf_cases hi <;> rfl

/-- A HASH that succeeds ends with the chaining words, the block count and the digest of its blocks taken command by
command. -/
theorem hash_eq_blockwise (hlen : msgLen s < 2 ^ 61) (hposs : OutputPossible (outBytes i s) s)
    (h : exec i s = .next t) {u : State}
    (hu : u = blockwise alg (padBytes g (storedMessage s)) s ((msgLen s + 72) / 64)) :
    sha1H5 t = sha1H5 u ∧ t.blkcnt = u.blkcnt ∧
    ∀ k, k < outBytes i s →
      (digestOf alg s.eng.sha1Le (sha1H5 u))[k]? = some (readByte t.mem (dstBase s + k)) := by
  obtain rfl : t = successOf i s := by
    rw [exec_hash_eq_successOf hi hlen hposs, Host.Outcome.next.injEq] at h
    exact h.symm
  obtain ⟨-, -, -, -, hr, hm⟩ := hposs
  obtain ⟨hwords, -, hcnt⟩ := successOf_hash_regs hi hr
  subst hu
  rw [sha1H5_blockwise, blockwise_blkcnt, ← outputBytes_hash hi]
  exact ⟨hwords, hcnt, fun k => getElem?_digest_stored hi hm hr⟩

end

/-- Settles O22: the states of `blockwise`, whose chaining words are those of HASH; MD5 uses the first four. -/
theorem hashMd5IsInitThenCompress : Obligations.HashMd5IsInitThenCompress := by
  unfold Obligations.HashMd5IsInitThenCompress
  intro s t hlen hposs h
  obtain ⟨hwords, hcnt, hdigest⟩ := hash_eq_blockwise (i := .hashMd5) rfl hlen hposs h rfl
  exact ⟨blockwise .md5 (padBytes .p512le (storedMessage s)) s, exec_initOf .md5 _ s,
    fun n _ => exec_compressOf .md5 _ s n, md5H4_eq_of_sha1H5_eq hwords, hcnt, hdigest⟩

/-- Settles O23: the states of `blockwise`, whose chaining words are those of HASH. -/
theorem hashSha1IsInitThenCompress : Obligations.HashSha1IsInitThenCompress := by
  unfold Obligations.HashSha1IsInitThenCompress
  intro s t hlen hposs h
  obtain ⟨hwords, hcnt, hdigest⟩ := hash_eq_blockwise (i := .hashSha1) rfl hlen hposs h rfl
  exact ⟨blockwise .sha1 (padBytes .p512 (storedMessage s)) s, exec_initOf .sha1 _ s,
    fun n _ => exec_compressOf .sha1 _ s n, hwords, hcnt, hdigest⟩

end Sys2Proof.ControlRules

/-! ## Exceptions: the invariant, the checks, failed checks, bus errors and irq (60_exceptions.md) -/

namespace Sys2Proof.ExceptionRules

open Sys2Proof.Machine Sys2Proof.Refinement Sys2Proof.StateRules Sys2Proof.MemoryRules Sys2Proof.PaddingRules
  Sys2Proof.ControlRules

/-- Settles O55: by `exists_step_inv`, the invariant over the engine's turn and over each input of the host. -/
theorem stepKeepsTheInvariant : Obligations.StepKeepsTheInvariant := by
  unfold Obligations.StepKeepsTheInvariant
  intro s h
  exact exists_step_inv h

section
variable {i : Instr} {s t : State} {e : CmdError}

/-! ### The checks of CHECK -/

theorem mem_messageCommands_iff :
    i ∈ [Instr.hashMd5, .hashSha1, .padP512, .padP1024, .padP512le] ↔ geomOf i ≠ none := by
  cases i <;> decide

theorem mem_sizedCommands_iff :
    i ∈ [Instr.hashMd5, .hashSha1, .padP512, .padP512le] ↔ geomOf i ≠ none ∧ geomOf i ≠ some .p1024 := by
  cases i <;> decide

theorem mem_padCommands_iff : i ∈ [Instr.padP512, .padP1024, .padP512le] ↔ isPad i = true := by
  cases i <;> decide

/-- SIZE is for the 8-byte length fields: a 64-bit length in bits always fits 16 bytes (40_padding.md R110). -/
theorem sizeOverflows_msgLen_iff (g : Geom) (s : State) :
    sizeOverflows g (msgLen s) = true ↔ g ≠ .p1024 ∧ 2 ^ 61 ≤ msgLen s := by
  by_cases hg : g = .p1024
  · simp [hg, sizeOverflows_p1024_msgLen]
  · rw [sizeOverflows_iff, if_neg hg]
    exact (and_iff_right hg).symm

theorem rangeFails_iff :
    rangeFails i s = true ↔ 2 ^ 64 < srcBase s + msgLen s ∨ 2 ^ 64 < dstBase s + outBytes i s ∨
      (isPad i = true ∧ 2 ^ 64 - 1 < outBytes i s) := by
  simp only [rangeFails, Bool.or_eq_true, Bool.and_eq_true, decide_eq_true_eq, or_assoc]
  rfl

/-- Settles O27: a command without a message checks nothing; for the others SIZE is `sizeOverflows` and ADDR is
`rangeFails`. -/
theorem checksInOrder : Obligations.ChecksInOrder := by
  unfold Obligations.ChecksInOrder
  intro i s
  simp only [mem_sizedCommands_iff, mem_messageCommands_iff, mem_padCommands_iff, ← rangeFails_iff]
  cases hg : geomOf i with
  | none => simp [checkOperands_of_no_message hg]
  | some g => simp [checkOperands, hg, sizeOverflows_msgLen_iff]

/-! ### A command that fails a check -/

theorem exec_eq_of_check_failed (hc : checkOperands i s = some e) : exec i s = .next (complete i (some e) s) := by
  rw [exec_eq_runChecked_workOf, runChecked_failed i (workOf i) s e hc]

theorem failed_complete (i : Instr) (e : CmdError) (s : State) : Failed (errCode e) s (complete i (some e) s) :=
  ⟨complete_phase i (some e) s, complete_status i (some e) s⟩

/-- A failed check leaves memory alone; a destination race may not (70_reset_and_hazards.md R246, log 8). -/
theorem memoryFrameButRaces_complete_check (he : e = .size ∨ e = .addr) :
    MemoryFrameButRaces i s (complete i (some e) s) := by
  intro a ha
  have hraced : (complete i (some e) s).mem = (scrambleRaced i s).mem := by
    rcases he with rfl | rfl <;> exact complete_mem i _ s
  have hdest := destBytes_le i s
  rw [hraced]
  refine readByte_scrambleRaced_other i s a fun ⟨hr, hlo, hhi⟩ => ha ⟨hr, hlo, by omega⟩

/-- A command that fails a check reports its error and changes nothing but STATUS, before any access (60_exceptions.md
R217). -/
theorem exists_exec_check_failed (hc : checkOperands i s = some e) :
    ∃ t, exec i s = .next t ∧ Failed (errCode e) s t ∧ t.outlen = s.outlen ∧ t.erraddr = s.erraddr ∧
      HashRegsFrame s t ∧ MemoryFrameButRaces i s t ∧ t.port = s.port ∧ CommandFrame s t := by
  have he := checkOperands_some i s e hc
  have herraddr : errAddrAfter (some e) s.erraddr = s.erraddr := by rcases he with rfl | rfl <;> rfl
  exact ⟨complete i (some e) s, exec_eq_of_check_failed hc, failed_complete i e s, complete_outlen i (some e) s,
    (complete_erraddr i (some e) s).trans herraddr, hashRegsFrame_complete_check he,
    memoryFrameButRaces_complete_check he, complete_port i (some e) s, commandFrame_complete (.refl s)⟩

/-- Settles O28: the check answers SIZE. -/
theorem sizeFailure : Obligations.SizeFailure := by
  unfold Obligations.SizeFailure
  intro i s hi hlen
  have hc : checkOperands i s = some .size := by rw [checksInOrder i s, if_pos ⟨hi, hlen⟩]
  exact exists_exec_check_failed hc

/-- Settles O29: SIZE does not come first, so the check answers ADDR. -/
theorem addrFailure : Obligations.AddrFailure := by
  unfold Obligations.AddrFailure
  intro i s hi hlen hrange
  have hsize : ¬(i ∈ [Instr.hashMd5, .hashSha1, .padP512, .padP512le] ∧ 2 ^ 61 ≤ msgLen s) := by
    rintro ⟨hsized, hlong⟩
    have hshort := hlen (by rintro rfl; exact absurd hsized (by decide))
    omega
  have hc : checkOperands i s = some .addr := by rw [checksInOrder i s, if_neg hsize, if_pos ⟨hi, hrange⟩]
  exact exists_exec_check_failed hc

/-! ### A bus error -/

/-- A bus error leaves H4 to every command but HASH.SHA1 (10_state.md R51, 60_exceptions.md R219). -/
theorem scrambleRegs_h4 (hi : i ≠ .hashSha1) (s : State) : (scrambleRegs i s).h4 = s.h4 := by
  cases i with
  | hashSha1 => exact absurd rfl hi
  | nop | initMd5 | initSha1 | compressMd5 | compressSha1 | hashMd5 | padP512 | padP1024 | padP512le => rfl

theorem complete_bus_h4 (hi : i ≠ .hashSha1) (a : Nat) (s : State) : (complete i (some (.bus a)) s).h4 = s.h4 :=
  (complete_h4 i _ s).trans (scrambleRegs_h4 hi s)

theorem algOf_of_isPad (hp : isPad i = true) : algOf i = none := by
  obtain ⟨g, hg⟩ := exists_padGeom_of_isPad hp
  rw [eq_pad_of_padGeom hg, algOf_pad]

/-- Settles O30: the command completes with the first failing access, which `runChecked_bus` finds in its plan. -/
theorem busFailure : Obligations.BusFailure := by
  unfold Obligations.BusFailure
  intro i s before after x hc hplan hbefore hx
  have hexec := exec_eq_runChecked_workOf i s
  rw [runChecked_bus i (workOf i) s before after x hc hplan hbefore hx] at hexec
  refine ⟨_, hexec, failed_complete i (.bus (accessAddr x)) { s with port := _ }, complete_erraddr i _ _,
    complete_outlen i _ _, ?_, commandFrame_exec hexec, fun ho a ha => readByte_exec_other hexec ha (by simp [ho]),
    fun hp => hashRegsFrame_exec (algOf_of_isPad hp) hexec, fun hi => complete_bus_h4 hi _ _⟩
  rw [complete_port, List.append_assoc]

/-! ### The irq wire -/

theorem irq_of_ended (h : Ended t) : irq t = t.ctrl.ie := by
  obtain ⟨-, -, hdone⟩ := h
  rw [irq, hdone, Bool.and_true]

/-- A command raises irq at its end, if interrupts are enabled (60_exceptions.md R222). -/
theorem irq_exec (h : exec i s = .next t) : irq t = s.ctrl.ie := by
  obtain ⟨r, hend⟩ := completed_of_exec h
  obtain ⟨hctrl, -⟩ := commandFrame_exec h
  rw [irq_of_ended (ended_of_completed hend), hctrl]

theorem irq_completeIllegal (s : State) : irq (completeIllegal s) = s.ctrl.ie :=
  irq_of_ended (ended_of_completed (completed_completeIllegal s))

theorem irq_accept (w : Word) (s : State) : irq (accept w s) = false := Bool.and_false _

theorem irq_driveRst (s : State) : irq (driveRst true s) = false := rfl

theorem irq_writeStatus (v : Word) (s : State) :
    irq (writeReg .status v s) = (s.ctrl.ie && (s.status.done && !v.getLsbD 1)) := rfl

theorem irq_writeCtrl (v : Word) (s : State) : irq (writeReg .ctrl v s) = (v.getLsbD 1 && s.status.done) := rfl

/-- Settles O51: each action's irq is read off from what it does to IE and DONE. -/
theorem irqFollowsDone : Obligations.IrqFollowsDone := by
  unfold Obligations.IrqFollowsDone
  intro i s t w v h
  refine ⟨rfl, irq_exec h, irq_completeIllegal s, irq_accept w s, irq_driveRst s, fun hv => ?_, fun hv => ?_,
    fun hv hdone => ?_⟩
  · rw [irq_writeStatus, hv, Bool.not_true, Bool.and_false, Bool.and_false]
  · rw [irq_writeCtrl, hv, Bool.false_and]
  · rw [irq_writeCtrl, hv, hdone, Bool.and_true]

end

end Sys2Proof.ExceptionRules

/-! ## Reset and hazards: dropped writes, the register window, reset, races and progress (70_reset_and_hazards.md) -/

namespace Sys2Proof.HazardRules

open Sys2Proof.Machine Sys2Proof.Refinement Sys2Proof.StateRules Sys2Proof.MemoryRules Sys2Proof.PaddingRules
  Sys2Proof.Md5Rules Sys2Proof.ControlRules

/-! ### Writes dropped while a command runs (R247, R248) -/

section
variable {r : Reg} {s : State}

theorem writeCmd_busy (hb : s.status.busy = true) (w : Word) :
    writeCmd w s = { s with status := { s.status with ovr := true } } := if_pos hb

theorem idleOnly_busy (hb : s.status.busy = true) (w : State) : idleOnly s w = s := if_pos hb

theorem idleOnly_idle (hb : s.status.busy = false) (w : State) : idleOnly s w = w := if_neg (by simp [hb])

/-- The registers whose writes R248 drops while a command runs: the operands, the chaining words and the block. -/
def IdleOnlyReg (r : Reg) : Prop :=
  r ∈ [Reg.srcLo, .srcHi, .lenLo, .lenHi, .dstLo, .dstHi, .h0, .h1, .h2, .h3, .h4] ∨ ∃ j, r = .blkw j

/-- A write of such a register passes `idleOnly`, and what it would write is none of STATUS, the phase and memory. -/
theorem writeReg_idleOnlyReg (hr : IdleOnlyReg r) (v : Word) (s : State) :
    ∃ w, writeReg r v s = idleOnly s w ∧ w.mem = s.mem ∧ w.phase = s.phase ∧ w.status = s.status := by
  simp only [IdleOnlyReg, List.mem_cons, List.not_mem_nil, or_false] at hr
  obtain (rfl | rfl | rfl | rfl | rfl | rfl | rfl | rfl | rfl | rfl | rfl) | ⟨j, rfl⟩ := hr <;>
    exact ⟨_, rfl, rfl, rfl, rfl⟩

/-- While busy such a write does nothing, whether reset is held or not. -/
theorem hostWrite_busy (hr : IdleOnlyReg r) (v : Word) (hb : s.status.busy = true) :
    hostWrite 4 (offsetOf r) v s = reply .done s := by
  obtain ⟨w, hw, -⟩ := writeReg_idleOnlyReg hr v s
  simp [hostWrite, writeOffset, hw, idleOnly_busy hb]

end

/-- Settles O6: the write is taken by `step_hostWR`, and `writeCmd` while busy only sets OVR. -/
theorem cmdWriteWhileBusyIsDropped : Obligations.CmdWriteWhileBusyIsDropped := by
  unfold Obligations.CmdWriteWhileBusyIsDropped
  intro s w rest ha hrst hb
  have hdrop := writeCmd_busy (s := { s with agenda := rest }) hb w
  rw [step_hostWR .cmd w s rest ha hrst, writeReg, hdrop]
  rfl

/-- Settles O43: every idle-only register's write passes `idleOnly`, which drops it. -/
theorem idleOnlyWritesAreDropped : Obligations.IdleOnlyWritesAreDropped := by
  unfold Obligations.IdleOnlyWritesAreDropped
  intro r v s rest hr ha hb
  rw [step_wr ha, hostWrite_busy (s := { s with agenda := rest }) hr v hb]
  rfl

/-! ### Registers read back (R251) -/

theorem lo32_setLo (x : Word64) (v : Word) : lo32 (setLo x v) = v :=
  (BitVec.extractLsb'_append_eq_of_add_le (by decide)).trans BitVec.extractLsb'_eq_self

theorem hi32_setLo (x : Word64) (v : Word) : hi32 (setLo x v) = hi32 x :=
  (BitVec.extractLsb'_append_eq_of_le (by decide)).trans BitVec.extractLsb'_eq_self

theorem lo32_setHi (x : Word64) (v : Word) : lo32 (setHi x v) = lo32 x :=
  (BitVec.extractLsb'_append_eq_of_add_le (by decide)).trans BitVec.extractLsb'_eq_self

theorem hi32_setHi (x : Word64) (v : Word) : hi32 (setHi x v) = v :=
  (BitVec.extractLsb'_append_eq_of_le (by decide)).trans BitVec.extractLsb'_eq_self

theorem byteOf_eq_extractLsb' (v : Word) (m : Nat) : byteOf v.toNat m = v.extractLsb' (8 * m) 8 := rfl

/-- A word is made of its four bytes (00_scope.md R9). -/
theorem wordOfBytes_byteOf (v : Word) :
    wordOfBytes (byteOf v.toNat 0) (byteOf v.toNat 1) (byteOf v.toNat 2) (byteOf v.toNat 3) = v := by
  simp only [wordOfBytes, byteOf_eq_extractLsb']
  rw [BitVec.extractLsb'_append_extractLsb'_eq_extractLsb' (by decide),
    BitVec.extractLsb'_append_extractLsb'_eq_extractLsb' (by decide),
    BitVec.extractLsb'_append_extractLsb'_eq_extractLsb' (by decide)]
  exact BitVec.extractLsb'_eq_self

/-- A write of BLKWj sets its own four bytes and no other (10_state.md R36). -/
theorem getElem_writeBlkw (blk : Block) (j k : Fin 16) (v : Word) {m : Nat} (hm : m < 4) :
    (writeBlkw blk j v)[4 * k.val + m] = if k = j then byteOf v.toNat m else blk[4 * k.val + m] := by
  unfold writeBlkw
  simp only [Vector.getElem_set]
  by_cases h : k = j
  · subst h
    interval_cases m <;> simp
  · have hne : k.val ≠ j.val := Fin.val_ne_of_ne h
    rw [if_neg (by omega), if_neg (by omega), if_neg (by omega), if_neg (by omega), if_neg h]

/-- The lanes of BLK are apart (10_state.md R36). -/
theorem readBlkw_writeBlkw (blk : Block) (j k : Fin 16) (v : Word) :
    readBlkw (writeBlkw blk j v) k = if k = j then v else readBlkw blk k := by
  have hbyte := fun m (hm : m < 4) => getElem_writeBlkw blk j k v hm
  have hfirst : (writeBlkw blk j v)[4 * k.val] = if k = j then byteOf v.toNat 0 else blk[4 * k.val] :=
    hbyte 0 (by decide)
  rw [readBlkw, hfirst, hbyte 1 (by decide), hbyte 2 (by decide), hbyte 3 (by decide)]
  split
  · exact wordOfBytes_byteOf v
  · rfl

section
variable {r : Reg} {s : State}

/-- While idle a register the host may write holds the value written, and no other register changes: a write of one half
of SRC, LEN or DST keeps the other half (10_state.md R38), a write of BLKWj the other lanes (R36). -/
theorem readReg_writeReg (hr : IdleOnlyReg r) (hb : s.status.busy = false) (v : Word) (r' : Reg) :
    readReg r' (writeReg r v s) = if r' = r then v else readReg r' s := by
  simp only [IdleOnlyReg, List.mem_cons, List.not_mem_nil, or_false] at hr
  obtain (rfl | rfl | rfl | rfl | rfl | rfl | rfl | rfl | rfl | rfl | rfl) | ⟨j, rfl⟩ := hr <;>
    simp only [writeReg, idleOnly_idle hb]
  -- the halves of SRC, LEN and DST
  iterate 6 cases r' <;> simp [readReg, lo32_setLo, hi32_setLo, lo32_setHi, hi32_setHi]
  -- H0..H4
  iterate 5 cases r' <;> rfl
  cases r' with
  | blkw k => simpa only [readReg, Reg.blkw.injEq] using readBlkw_writeBlkw s.blk j k v
  | _ => rfl

theorem writeReg_frame (hr : IdleOnlyReg r) (hb : s.status.busy = false) (v : Word) :
    (writeReg r v s).mem = s.mem ∧ (writeReg r v s).phase = s.phase ∧ (writeReg r v s).status = s.status := by
  obtain ⟨w, hw, hframe⟩ := writeReg_idleOnlyReg hr v s
  rwa [hw, idleOnly_idle hb]

/-- The registers of R249's list are the others: STATUS, CTRL and the operands read settled while busy. -/
theorem unreadableWhileBusy_eq_false
    (hr : r ∈ [Reg.status, .ctrl, .srcLo, .srcHi, .lenLo, .lenHi, .dstLo, .dstHi]) : unreadableWhileBusy r = false := by
  revert r
  decide

end

/-- Settles O42: read-back by `readReg_writeReg`, the steps by `step_hostWR` and `step_hostRD`. -/
theorem registerReadsBackItsWrite : Obligations.RegisterReadsBackItsWrite := by
  unfold Obligations.RegisterReadsBackItsWrite
  refine ⟨fun r v s hr hb => ⟨?_, fun r' hne => ?_, writeReg_frame hr hb v⟩, fun r v s rest ha hrst _ => ?_,
    fun r s rest ha hrst hsettled => ?_⟩
  · rw [readReg_writeReg hr hb, if_pos rfl]
  · rw [readReg_writeReg hr hb, if_neg hne]
  · rw [step_hostWR r v s rest ha hrst, reply, writeReg_replies]
  · rw [step_hostRD r s rest ha hrst (hsettled.imp_right unreadableWhileBusy_eq_false), reply]

/-! ### Reset keeps memory (R241, R242) -/

section
variable {i : Instr} {s : State}

theorem step_assertReset {rest : List Event} (ha : s.agenda = .setRst true :: rest) :
    step s = .next (driveRst true { s with agenda := rest }) := by
  simp only [step, ha, perform]

/-- Reset that cuts no command with an output keeps memory whole. -/
theorem resetMemory_of_no_output (h : s.status.busy = false ∨ runningCommand s = none) : resetMemory s = s.mem := by
  unfold resetMemory
  rcases h with hb | hn
  · simp [hb]
  · simp [hn]

/-- Reset leaves every byte alone outside the ranges of the command it cuts. -/
theorem readByte_resetMemory_other (hi : runningCommand s = some i) {a : Nat}
    (hd : ¬(dstBase s ≤ a ∧ a < dstBase s + outBytes i s))
    (hs : padOverlaps i s = true → ¬(srcBase s ≤ a ∧ a < srcBase s + msgLen s)) :
    readByte (resetMemory s) a = readByte s.mem a := by
  cases hb : s.status.busy with
  | false => rw [resetMemory_of_no_output (.inl hb)]
  | true =>
    have hcut : resetMemory s = scrambleOutput i s := by simp [resetMemory, hb, hi]
    rw [hcut, readByte_scrambleOutput_other i s a hd hs]

end

/-- Settles O53: memory after reset is `resetMemory`, which scrambles the output of the command it cuts. -/
theorem resetKeepsMemory : Obligations.ResetKeepsMemory := by
  unfold Obligations.ResetKeepsMemory
  intro s rest ha
  refine ⟨_, step_assertReset ha, fun h => ?_, fun i hi ho a hd => ?_, fun i a hi hd hs => ?_⟩
  · exact resetMemory_of_no_output (s := { s with agenda := rest }) h
  · exact readByte_resetMemory_other (s := { s with agenda := rest }) hi hd fun h => absurd (ho.symm.trans h) nofun
  · exact readByte_resetMemory_other (s := { s with agenda := rest }) hi hd fun _ => hs

/-! ### Races on the source (R245) -/

/-- `t` shows the host the same outcome as `s`, with the same accesses made. -/
structure SameOutcome (s t : State) : Prop where
  status : t.status = s.status
  outlen : t.outlen = s.outlen
  blkcnt : t.blkcnt = s.blkcnt
  erraddr : t.erraddr = s.erraddr
  port : t.port = s.port

/-- The state with the addresses other agents wrote since acceptance replaced. -/
def withRaced (r : List Nat) (s : State) : State := { s with raced := r }

section
variable {i : Instr} {s t u v : State}

/-- Of the registers compared, only BLKCNT is touched by a hazard, and only by a bus error (60_exceptions.md R219). -/
theorem unsettle_blkcnt_eq (r : Option CmdError) (hcnt : v.blkcnt = u.blkcnt) (hfree : v.free = u.free) :
    (unsettle i r v).blkcnt = (unsettle i r u).blkcnt := by
  rcases r with _ | e
  · simpa using hcnt
  · cases e with
    | size | cmd | addr => simpa using hcnt
    | bus a =>
      simp only [unsettle]
      cases i with
      | hashMd5 | hashSha1 => simp [scrambleRegs, hfree]
      | nop | initMd5 | initSha1 | compressMd5 | compressSha1 | padP512 | padP1024 | padP512le => exact hcnt

/-- Commands that come to their end alike, but for the races, show the same outcome. -/
theorem SameOutcome.complete (h : SameOutcome u v) (r : Option CmdError) (hfree : v.free = u.free)
    (hout : outBytes i v = outBytes i u) : SameOutcome (complete i r u) (complete i r v) where
  status := by rw [complete_status, complete_status, h.status]
  outlen := by rw [complete_outlen, complete_outlen, h.outlen, hout]
  blkcnt := by rw [complete_blkcnt, complete_blkcnt, unsettle_blkcnt_eq r h.blkcnt hfree]
  erraddr := by rw [complete_erraddr, complete_erraddr, h.erraddr]
  port := by rw [complete_port, complete_port, h.port]

theorem sameOutcome_withRaced (r : List Nat) (s : State) : SameOutcome s (withRaced r s) := ⟨rfl, rfl, rfl, rfl, rfl⟩

/-- BLKCNT of a HASH is a function of the message's length (40_padding.md R107). -/
theorem outputOf_blkcnt_withRaced (r : List Nat) {m n : List Byte} (hlen : n.length = m.length) (s : State) :
    (outputOf i n (withRaced r s)).blkcnt = (outputOf i m s).blkcnt := by
  cases i with
  | hashMd5 => simp [outputOf, hashMd5Of, hlen]
  | hashSha1 => simp [outputOf, hashSha1Of, hlen]
  | nop | initMd5 | initSha1 | compressMd5 | compressSha1 | padP512 | padP1024 | padP512le => rfl

/-- A race changes bytes of the message, not its length. -/
theorem workOf_blkcnt_withRaced (r : List Nat) (s : State) :
    (workOf i (withRaced r s)).blkcnt = (workOf i s).blkcnt := by
  have hlen : (message (withRaced r s)).length = (message s).length :=
    (length_message (withRaced r s)).trans (length_message s).symm
  cases i with
  | initMd5 | initSha1 | compressMd5 | compressSha1 => simp [workOf, initRegs, withRaced]
  | nop | hashMd5 | hashSha1 | padP512 | padP1024 | padP512le => exact outputOf_blkcnt_withRaced r hlen s

theorem sameOutcome_workOf (r : List Nat) (s : State) : SameOutcome (workOf i s) (workOf i (withRaced r s)) := by
  have hs := frame_workOf i s
  have hr := frame_workOf i (withRaced r s)
  exact
    { status := hr.status.trans hs.status.symm
      outlen := hr.outlen.trans hs.outlen.symm
      blkcnt := workOf_blkcnt_withRaced r s
      erraddr := hr.erraddr.trans hs.erraddr.symm
      port := (workOf_port i _).trans (workOf_port i s).symm }

theorem sameOutcome_runChecked (i : Instr) (r : List Nat) (s : State) :
    SameOutcome (runChecked i (workOf i) s) (runChecked i (workOf i) (withRaced r s)) := by
  have hcheck : checkOperands i (withRaced r s) = checkOperands i s := checkOperands_congr i _ _ rfl rfl rfl
  have hplan : portPlan i (withRaced r s) = portPlan i s := rfl
  obtain ⟨e, hc, heq⟩ | ⟨hc, hq, heq⟩ | ⟨before, x, after, hc, hp, hb, hx, heq⟩ := runChecked_cases i (workOf i) s
  · rw [heq, runChecked_failed i _ _ e (hcheck.trans hc)]
    exact (sameOutcome_withRaced r s).complete _ rfl rfl
  · rw [heq, runChecked_quiet i _ _ (hcheck.trans hc) hq, hplan]
    have hs := frame_workOf i { s with port := s.port ++ portPlan i s }
    have hr := frame_workOf i (withRaced r { s with port := s.port ++ portPlan i s })
    exact (sameOutcome_workOf r { s with port := s.port ++ portPlan i s }).complete _ (hr.free.trans hs.free.symm)
      ((hr.outBytes i).trans (hs.outBytes i).symm)
  · rw [heq, runChecked_bus i _ _ before after x (hcheck.trans hc) (hplan.trans hp) hb hx]
    exact (sameOutcome_withRaced r { s with port := s.port ++ (before ++ [x]) }).complete _ rfl rfl

/-- A race does not change the outcome of the merged command. -/
theorem exists_exec_withRaced (r : List Nat) (h : exec i s = .next t) :
    ∃ t', exec i (withRaced r s) = .next t' ∧ SameOutcome t t' := by
  rw [exec_eq_runChecked_workOf] at h ⊢
  cases h
  exact ⟨_, rfl, sameOutcome_runChecked i r s⟩

/-- Settling races shows nothing in what the host compares. -/
theorem sameOutcome_settleRaces (i : Instr) (r : List Nat) (s : State) :
    SameOutcome (settleRaces i s) (settleRaces i (withRaced r s)) := by
  constructor <;> simp [withRaced]

theorem engineStep_completeIllegal {e : IllegalWord} (hp : s.phase = .complete) (hd : decode s.eng.cmdword = .error e) :
    engineStep s = .next (completeIllegal s) := by
  simp [engineStep, hp, tickComplete, hd]

/-- A race does not change the outcome of the engine step that ends a command. -/
theorem exists_engineStep_withRaced (r : List Nat) (hp : s.phase = .complete) (h : engineStep s = .next t) :
    ∃ t', engineStep (withRaced r s) = .next t' ∧ SameOutcome t t' := by
  cases hd : decode s.eng.cmdword with
  | ok i =>
    rw [engineStep_complete hp hd] at h
    cases h
    have hs := frame_settleRaces i s
    have hr := frame_settleRaces i (withRaced r s)
    have hend := (sameOutcome_settleRaces i r s).complete s.eng.result (hr.free.trans hs.free.symm)
      ((hr.outBytes i).trans (hs.outBytes i).symm)
    exact ⟨_, engineStep_complete (t := withRaced r s) hp hd, hend⟩
  | error e =>
    rw [engineStep_completeIllegal hp hd] at h
    cases h
    exact ⟨_, engineStep_completeIllegal (s := withRaced r s) hp hd, rfl, rfl, rfl, rfl, rfl⟩

/-- A source byte that another agent wrote is a race to settle. -/
theorem sourceRaced_of_mem {q : Nat} (hq : q < msgLen s) (hr : srcBase s + q ∈ s.raced) : sourceRaced s = true :=
  List.any_eq_true.2 ⟨_, hr, decide_eq_true ⟨by omega, by omega⟩⟩

/-- Settling a race of a HASH that succeeds hashes the message as its races leave it. -/
theorem settleRaces_hash_h5 {g : Geom} {alg : Alg} (hi : hashOf i = some (g, alg)) (hres : s.eng.result = none)
    (hraced : sourceRaced s = true) :
    sha1H5 (settleRaces i s) = chainWords alg (padBytes g (racedMessage s)) ((msgLen s + 72) / 64) s := by
  have hsettle : settleRaces i s = { outputOf i (racedMessage s) s with blkcnt := s.blkcnt } := by
    simp [settleRaces, hres, hraced]
  have hwords := outputOf_hash_h5 hi (racedMessage s) s
  rw [length_racedMessage, padLen_hash_div hi] at hwords
  rw [hsettle]
  exact hwords

/-- The chaining words that the last engine step of a raced HASH leaves. -/
theorem engineStep_raced_hash {g : Geom} {alg : Alg} (hi : hashOf i = some (g, alg)) (hp : s.phase = .complete)
    (hd : decode s.eng.cmdword = .ok i) (hres : s.eng.result = none) (hraced : sourceRaced s = true)
    (h : engineStep s = .next t) :
    sha1H5 t = chainWords alg (padBytes g (racedMessage s)) ((msgLen s + 72) / 64) s := by
  rw [engineStep_complete hp hd, hres] at h
  cases h
  rw [sha1H5_complete_none, settleRaces_hash_h5 hi hres hraced]

end

/-- Settles O33: the merged command and COMPLETE each end alike whatever was raced, and a HASH's words are those of the
message its races leave. -/
theorem raceKeepsTheOutcome : Obligations.RaceKeepsTheOutcome := by
  unfold Obligations.RaceKeepsTheOutcome
  refine ⟨fun i s t r h => ?_, fun s t r hp h => ?_, fun s t hp hres h ⟨q, hq, hr⟩ => ⟨fun hd => ?_, fun hd => ?_⟩⟩
  · obtain ⟨t', hexec, hsame⟩ := exists_exec_withRaced r h
    exact ⟨t', hexec, hsame.status, hsame.outlen, hsame.blkcnt, hsame.erraddr, hsame.port⟩
  · obtain ⟨t', hstep, hsame⟩ := exists_engineStep_withRaced r hp h
    exact ⟨t', hstep, hsame.status, hsame.outlen, hsame.blkcnt, hsame.erraddr, hsame.port⟩
  · have hwords := engineStep_raced_hash (i := .hashMd5) rfl hp hd hres (sourceRaced_of_mem hq hr) h
    exact (md5H4_of_chainWords hwords).1
  · exact engineStep_raced_hash (i := .hashSha1) rfl hp hd hres (sourceRaced_of_mem hq hr) h

/-! ### Progress of a running command (R255) -/

/-- A rank of the sequencer's positions that falls with every engine step that takes no byte of the stream: INIT_H,
LOADW, the steps of a block, ADD, then FILL or the bytes of OUT, and COMPLETE last (10_state.md R48). -/
def phaseWork (p : Phase) (e : Engine) : Nat :=
  match p with
  | .initH => 104
  | .loadw => 103
  | .step => 102 - e.t
  | .add => 22
  | .fill => 21
  | .out => 20 - e.k
  | .copy => 2
  | .padw => 1
  | .idle | .check | .complete => 0

/-- The bytes of the padded stream and of the message still to come, then the position; a byte weighs more than any
position. FILL and PADW take bytes of the stream, COPY bytes of the message. -/
def workLeft (s : State) : Nat :=
  128 * ((s.eng.p - s.eng.q) + (msgLen s - s.eng.q)) + phaseWork s.phase s.eng

section
variable {i : Instr} {s t : State} {a : Nat}

theorem workLeft_raiseError (e : CmdError) (port : List Access) (hp : 0 < phaseWork s.phase s.eng) :
    workLeft (raiseError e { s with port := port }) < workLeft s :=
  Nat.add_lt_add_left hp _

/-- A read errs, which ends the work, or the phase goes on with the byte. -/
theorem engineRead_workLeft {use : Byte → State → Host.Outcome State Fault Refusal} {n : Nat}
    (h : engineRead a use s = .next t) (hbus : ∀ port, workLeft (raiseError (.bus a) { s with port := port }) < n)
    (huse : ∀ v port got, use v { s with port := port, got := got } = .next t → workLeft t < n) : workLeft t < n := by
  unfold engineRead at h
  split at h
  · cases h
  · split at h
    · cases h
      exact hbus _
    · exact huse _ _ _ h

theorem engineWrite_workLeft {next : State → State} {v : Byte} {n : Nat} (h : engineWrite a v next s = .next t)
    (hbus : ∀ port, workLeft (raiseError (.bus a) { s with port := port }) < n)
    (hnext : ∀ port mem, workLeft (next { s with port := port, mem := mem }) < n) : workLeft t < n := by
  unfold engineWrite at h
  split at h
  · cases h
  · split at h
    · cases h
      exact hbus _
    · cases h
      exact hnext _ _

theorem tickInitH_workLeft (hp : s.phase = .initH) (h : tickInitH i s = .next t) : workLeft t < workLeft s := by
  have hnext {alg : Alg} {p : Phase} (ha : afterInit i = some (alg, p)) (e : Engine) : phaseWork p e < 104 := by
    obtain rfl | ⟨rfl, -⟩ := afterInit_cases ha <;> simp [phaseWork]
  have hwork : phaseWork s.phase s.eng = 104 := by rw [hp]; rfl
  unfold tickInitH at h
  split at h
  · next p ha => cases h; exact Nat.add_lt_add_left (hwork ▸ hnext ha s.eng) _
  · next p ha => cases h; exact Nat.add_lt_add_left (hwork ▸ hnext ha s.eng) _
  · cases h

theorem tickFill_workLeft (hp : s.phase = .fill) (h : tickFill i s = .next t) : workLeft t < workLeft s := by
  have hfilled (hq : s.eng.q < s.eng.p) (v : Byte) (port : List Access) (got : List Byte) :
      workLeft (fillByte v { s with port := port, got := got }) < workLeft s := by
    simp only [workLeft, fillByte, msgLen, hp]
    split <;> simp only [phaseWork] <;> omega
  unfold tickFill at h
  split at h
  · cases h
  · split at h
    · cases h
    · have hq : s.eng.q < s.eng.p := by omega
      split at h
      · refine engineRead_workLeft h (fun port => workLeft_raiseError _ port (by simp [hp, phaseWork]))
          fun v port got hu => ?_
        cases hu
        exact hfilled hq v port got
      · cases h
        exact hfilled hq _ s.port s.got

theorem tickLoadw_workLeft (hp : s.phase = .loadw) (h : tickLoadw i s = .next t) : workLeft t < workLeft s := by
  have hwork : phaseWork s.phase s.eng = 103 := by rw [hp]; rfl
  unfold tickLoadw at h
  split at h <;> cases h <;> exact Nat.add_lt_add_left (hwork ▸ (by decide : 102 < 103)) _

/-- STEP counts its index up, and leaves for ADD at the last. -/
theorem phaseWork_step {n bound : Nat} (hn : n < bound) (hbound : bound ≤ 80) (e : Engine) :
    phaseWork (if n + 1 = bound then .add else .step) { e with t := n + 1 } < 102 - n := by
  split <;> simp only [phaseWork] <;> omega

theorem tickStep_workLeft (hp : s.phase = .step) (h : tickStep i s = .next t) : workLeft t < workLeft s := by
  have hwork : phaseWork s.phase s.eng = 102 - s.eng.t := by rw [hp]; rfl
  unfold tickStep at h
  split at h
  · split at h
    · next ht => cases h; exact Nat.add_lt_add_left (hwork ▸ phaseWork_step ht (by decide) _) _
    · cases h
  · split at h
    · next ht => cases h; exact Nat.add_lt_add_left (hwork ▸ phaseWork_step ht (by decide) _) _
    · cases h
  · cases h

/-- After ADD there is a FILL, an OUT or nothing more. -/
theorem phaseWork_afterAdd (i : Instr) (s : State) (e : Engine) : phaseWork (afterAdd i s) e < 22 := by
  unfold afterAdd
  split
  · simp [phaseWork]
  · split <;> simp only [phaseWork] <;> omega

theorem tickAdd_workLeft (hp : s.phase = .add) (h : tickAdd i s = .next t) : workLeft t < workLeft s := by
  have hwork : phaseWork s.phase s.eng = 22 := by rw [hp]; rfl
  unfold tickAdd at h
  split at h
  · cases h; exact Nat.add_lt_add_left (hwork ▸ phaseWork_afterAdd i s _) _
  · cases h; exact Nat.add_lt_add_left (hwork ▸ phaseWork_afterAdd i s _) _
  · cases h

theorem outBytes_hash_le {g : Geom} {alg : Alg} (hi : hashOf i = some (g, alg)) (s : State) : outBytes i s ≤ 20 := by
  obtain ⟨rfl, -, -⟩ | ⟨rfl, -, -⟩ := hashOf_cases hi <;> simp [outBytes]

theorem tickOut_workLeft (hp : s.phase = .out) (h : tickOut i s = .next t) : workLeft t < workLeft s := by
  unfold tickOut at h
  split at h
  · cases h
  · next g alg hi =>
    split at h
    · cases h
    · next v hv =>
      have hk : s.eng.k < 20 := by
        obtain ⟨hlt, -⟩ := List.getElem?_eq_some_iff.1 hv
        rw [length_digestBytes hi] at hlt
        exact hlt.trans_le (outBytes_hash_le hi s)
      refine engineWrite_workLeft h (fun port => workLeft_raiseError _ port ?_) fun port mem => ?_
      · simp only [hp, phaseWork]
        omega
      · simp only [workLeft, msgLen, hp]
        split <;> simp only [phaseWork] <;> omega

theorem tickCopy_workLeft (hp : s.phase = .copy) (h : tickCopy i s = .next t) : workLeft t < workLeft s := by
  have hpos : 0 < phaseWork s.phase s.eng := by simp [hp, phaseWork]
  unfold tickCopy at h
  split at h
  · cases h
  · split at h
    · next hq =>
      refine engineRead_workLeft h (fun port => workLeft_raiseError _ port hpos) fun v port got hu => ?_
      refine engineWrite_workLeft hu (fun port => workLeft_raiseError (s := { s with got := got }) _ port hpos)
        fun port mem => ?_
      simp only [msgLen] at hq
      simp only [workLeft, msgLen, hp, phaseWork]
      omega
    · cases h
      simp only [workLeft, msgLen, hp, phaseWork]
      omega

theorem tickPadw_workLeft (hp : s.phase = .padw) (h : tickPadw i s = .next t) : workLeft t < workLeft s := by
  have hpos : 0 < phaseWork s.phase s.eng := by simp [hp, phaseWork]
  unfold tickPadw at h
  split at h
  · cases h
  · split at h
    · cases h
    · split at h
      · next hq =>
        refine engineWrite_workLeft h (fun port => workLeft_raiseError _ port hpos) fun port mem => ?_
        simp only [workLeft, msgLen, hp, phaseWork]
        omega
      · cases h
        simp only [workLeft, msgLen, hp, phaseWork]
        omega

/-- An engine step inside a command has less work left (10_state.md R48). -/
theorem engineStep_workLeft (h : engineStep s = .next t) (hidle : s.phase ≠ .idle) (hcheck : s.phase ≠ .check)
    (hcomplete : s.phase ≠ .complete) : workLeft t < workLeft s := by
  unfold engineStep at h
  cases hp : s.phase <;> simp only [hp] at h
  case idle => exact absurd hp hidle
  case check => exact absurd hp hcheck
  case initH => obtain ⟨i, hi⟩ := tickWork_cases h; exact tickInitH_workLeft hp hi
  case fill => obtain ⟨i, hi⟩ := tickWork_cases h; exact tickFill_workLeft hp hi
  case loadw => obtain ⟨i, hi⟩ := tickWork_cases h; exact tickLoadw_workLeft hp hi
  case step => obtain ⟨i, hi⟩ := tickWork_cases h; exact tickStep_workLeft hp hi
  case add => obtain ⟨i, hi⟩ := tickWork_cases h; exact tickAdd_workLeft hp hi
  case out => obtain ⟨i, hi⟩ := tickWork_cases h; exact tickOut_workLeft hp hi
  case copy => obtain ⟨i, hi⟩ := tickWork_cases h; exact tickCopy_workLeft hp hi
  case padw => obtain ⟨i, hi⟩ := tickWork_cases h; exact tickPadw_workLeft hp hi
  case complete => exact absurd hp hcomplete

/-- The engine's turn inside a command ends it, or keeps its frame and leaves less work. -/
theorem engineAct_progress (h : engineAct s = .next t) (hidle : s.phase ≠ .idle) :
    Ended t ∨ (Frame s t ∧ workLeft t < workLeft s) := by
  unfold engineAct at h
  split at h
  · obtain ⟨r, hend⟩ := completed_of_runAccepted h
    exact .inl (ended_of_completed hend)
  · next hcheck =>
    by_cases hcomplete : s.phase = .complete
    · rw [engineStep, hcomplete] at h
      obtain ⟨r, hend⟩ := completed_of_tickComplete h
      exact .inl (ended_of_completed hend)
    · exact .inr ⟨engineStep_frame h hcomplete, engineStep_workLeft h hidle hcheck hcomplete⟩

theorem step_of_no_input (ha : s.agenda = []) : step s = engineAct s := by
  rw [step, ha]

theorem steps_succ_of_step (h : step s = .next t) (n : Nat) : steps (n + 1) s = steps n t := by
  rw [steps, h]

/-- A running command ends: the work left cannot fall for ever. -/
theorem exists_steps_ended (hinv : Inv s) (ha : s.agenda = []) (hb : s.status.busy = true) :
    ∃ n t, steps n s = .next t ∧ Ended t := by
  induction hw : workLeft s using Nat.strong_induction_on generalizing s with
  | _ w ih =>
    obtain ⟨u, hstep, hu⟩ := exists_step_inv hinv
    have hact : engineAct s = .next u := step_of_no_input ha ▸ hstep
    obtain hend | ⟨hf, hlt⟩ := engineAct_progress hact (hinv.status.1.1 hb)
    · exact ⟨1, u, steps_succ_of_step hstep 0, hend⟩
    · obtain ⟨n, t, hrun, hend⟩ := ih _ (hw ▸ hlt) hu (hf.agenda.trans ha) (hf.status ▸ hb) rfl
      exact ⟨n + 1, t, (steps_succ_of_step hstep n).trans hrun, hend⟩

end

/-- Settles O57: by induction on the work left, which every engine step inside a command lowers. -/
theorem runningCommandCompletes : Obligations.RunningCommandCompletes := by
  unfold Obligations.RunningCommandCompletes
  intro s hinv ha hb
  exact exists_steps_ended hinv ha hb

end Sys2Proof.HazardRules
